-- ==== Sys2Proof/Word.lean ====
section
/-! DEFINITION. The word types of the block (R7, R9): all registers hold unsigned values. -/

namespace Sys2Proof

/-- A byte: the width of a UART, FDC or NVRAM datum (R24, R31, R36). -/
abbrev Byte := BitVec 8

/-- A 16-bit word: `csr.bits`, the timer counters, the UART counter (R22, R23, R29). -/
abbrev Half := BitVec 16

/-- The widest value of a bus access (R74: sizes 8, 16, 32). -/
abbrev Word := BitVec 32

end Sys2Proof
end

