-- ==== Sys2Proof/Config.lean ====
section
/-! DEFINITION. The parameters of R6 and the free values of R8. A parameter the spec marks OPEN, and a
draw, is an opaque constant: it has no value that a proof could use. -/

namespace Sys2Proof.Config

/-- The parameters R6 marks OPEN. `uartCtrStepPred` and `fdcLatencyPred` are one less than
`UART_CTR_STEP` and `FDC_LATENCY`, because R6 makes both positive. -/
structure Params where
  uartBase : Nat
  timerBase : Nat
  csrBase : Nat
  fdcBase : Nat
  nvramBase : Nat
  nvramSize : Nat
  uartCtrStepPred : Nat
  fdcLatencyPred : Nat
  uartIrqVector : Nat
  uartIrqPriority : Nat
  deriving DecidableEq, Repr, Inhabited

/-- `UART_CTR_STEP`, a positive integer (R6). -/
def Params.uartCtrStep (p : Params) : Nat := p.uartCtrStepPred + 1

/-- `FDC_LATENCY`, a natural number that is at least 1 (R6). -/
def Params.fdcLatency (p : Params) : Nat := p.fdcLatencyPred + 1

/-- The parameters of the machine at hand. OPEN (R6, D2, D20, D25, D28, D40): no value is chosen. -/
opaque params : Params

/-- `Draw(T)` of R8: the n-th draw that no script answers. A free value, under no law. -/
opaque draw : Nat → Word

/-- `CSR_UART_CAUSE` (R6). -/
def csrUartCause : Nat := 3
/-- `CSR_FDC_CAUSE` (R6). -/
def csrFdcCause : Nat := 2
/-- `UART_WINDOW` (R6). -/
def uartWindow : Nat := 16
/-- `TIMER_WINDOW` (R6). -/
def timerWindow : Nat := 4
/-- `CSR_WINDOW` (R6). -/
def csrWindow : Nat := 0x80
/-- `FDC_WINDOW` (R6). -/
def fdcWindow : Nat := 4
/-- `FDC_SIDES` (R6). -/
def fdcSides : Nat := 2
/-- `FDC_TRACKS` (R6). -/
def fdcTracks : Nat := 80
/-- `FDC_TRACK_BYTES` (R6). -/
def fdcTrackBytes : Nat := 4608
/-- `FDC_SECTOR_SIZE` (R6). -/
def fdcSectorSize : Nat := 512
/-- `FDC_SECTORS` per track (R6). -/
def fdcSectors : Nat := 9
/-- `FDC_SECTOR_BASE`, the number of a track's first sector (R6). -/
def fdcSectorBase : Nat := 1
/-- `FDC_IMAGE_BYTES` (R6). -/
def fdcImageBytes : Nat := fdcSides * fdcTracks * fdcTrackBytes
/-- `NVRAM_FILL` (R6). -/
def nvramFill : Byte := 0x5A

end Sys2Proof.Config
end

