-- ==== Sys2Proof/Syntax.lean ====
section
/-! DEFINITION. The operations of spec/opcode_table.json, one constructor a row, and the encoded form
of an access (R90, R96, R97): a tuple, since the block has no instruction words. -/

namespace Sys2Proof

/-- The access sizes of R74. -/
inductive AccSize where
  | w8 | w16 | w32
  deriving DecidableEq, Repr

/-- The number of bits an access of this size moves (R74). -/
def AccSize.bits : AccSize → Nat
  | .w8 => 8
  | .w16 => 16
  | .w32 => 32

/-- The two ports of the UART (R24). -/
inductive Port where
  | a | b
  deriving DecidableEq, Repr

/-- The devices whose registers the BUS format reaches (R75, R90). -/
inductive RegDevice where
  | csr | tmr | uart | fdc
  deriving DecidableEq, Repr

/-- The five devices of R1, as the service and reset operations name them (R101). -/
inductive Device where
  | csr | tmr | uart | fdc | nv
  deriving DecidableEq, Repr

/-- An encoded operation in one of the table's four formats. `bus` is the tuple of R90; in `nv` the byte
offset is a field of its own and only `sel[7]` counts (R90, R95); `uartCmd` and `fdcCmd` are a command byte
written at the port's command offset (R96) or at FDC offset 0 (R97). A read's `value` says nothing. -/
inductive Access where
  | bus (dev : RegDevice) (sel : Byte) (size : AccSize) (value : Word)
  | nv (sel : Byte) (offset : Nat) (size : AccSize) (value : Word)
  | uartCmd (port : Port) (byte : Byte)
  | fdcCmd (byte : Byte)
  deriving DecidableEq, Repr

/-- The rows of spec/opcode_table.json. Operand names: `sz` the size and `v` the value of an access; `w`, `k`
the window and cause of R93, `x` of a CSR no-op its bits sel[6:2]; of a UART command (R96) the port `p`, the
ignored bit 7 `x` and the enable bits; of an FDC command (R97) the letters of its row (`ver` is V, `side` is U,
`y` the ignored bit 3, `x` the ignored bit 0, `cond` is IIII); `off` the NVRAM byte offset. -/
inductive Instr where
  /-- UART.RD.MRA (R178). -/
  | uartRdMra (sz : AccSize)
  /-- UART.RD.SRA (R179). -/
  | uartRdSra (sz : AccSize)
  /-- UART.RD.RSV2 (R180). -/
  | uartRdRsv2 (sz : AccSize)
  /-- UART.RD.RHRA (R181). -/
  | uartRdRhra (sz : AccSize)
  /-- UART.RD.IPCR (R182). -/
  | uartRdIpcr (sz : AccSize)
  /-- UART.RD.ISR (R183). -/
  | uartRdIsr (sz : AccSize)
  /-- UART.RD.CTU (R184). -/
  | uartRdCtu (sz : AccSize)
  /-- UART.RD.CTL (R185). -/
  | uartRdCtl (sz : AccSize)
  /-- UART.RD.MRB (R186). -/
  | uartRdMrb (sz : AccSize)
  /-- UART.RD.SRB (R187). -/
  | uartRdSrb (sz : AccSize)
  /-- UART.RD.RSV10 (R188). -/
  | uartRdRsv10 (sz : AccSize)
  /-- UART.RD.RHRB (R189). -/
  | uartRdRhrb (sz : AccSize)
  /-- UART.RD.RSV12 (R190). -/
  | uartRdRsv12 (sz : AccSize)
  /-- UART.RD.RSV13 (R191). -/
  | uartRdRsv13 (sz : AccSize)
  /-- UART.RD.START (R192). -/
  | uartRdStart (sz : AccSize)
  /-- UART.RD.STOP (R193). -/
  | uartRdStop (sz : AccSize)
  /-- UART.WR.MRA (R194). -/
  | uartWrMra (sz : AccSize) (v : Word)
  /-- UART.WR.CSRA (R195). -/
  | uartWrCsra (sz : AccSize) (v : Word)
  /-- UART.WR.CRA (R196). -/
  | uartWrCra (sz : AccSize) (v : Word)
  /-- UART.WR.THRA (R197). -/
  | uartWrThra (sz : AccSize) (v : Word)
  /-- UART.WR.ACR (R198). -/
  | uartWrAcr (sz : AccSize) (v : Word)
  /-- UART.WR.IMR (R199). -/
  | uartWrImr (sz : AccSize) (v : Word)
  /-- UART.WR.CTUR (R200). -/
  | uartWrCtur (sz : AccSize) (v : Word)
  /-- UART.WR.CTLR (R201). -/
  | uartWrCtlr (sz : AccSize) (v : Word)
  /-- UART.WR.MRB (R202). -/
  | uartWrMrb (sz : AccSize) (v : Word)
  /-- UART.WR.CSRB (R203). -/
  | uartWrCsrb (sz : AccSize) (v : Word)
  /-- UART.WR.CRB (R204). -/
  | uartWrCrb (sz : AccSize) (v : Word)
  /-- UART.WR.THRB (R205). -/
  | uartWrThrb (sz : AccSize) (v : Word)
  /-- UART.WR.RSV12 (R206). -/
  | uartWrRsv12 (sz : AccSize) (v : Word)
  /-- UART.WR.RSV13 (R207). -/
  | uartWrRsv13 (sz : AccSize) (v : Word)
  /-- UART.WR.SOPR (R208). -/
  | uartWrSopr (sz : AccSize) (v : Word)
  /-- UART.WR.ROPR (R209). -/
  | uartWrRopr (sz : AccSize) (v : Word)
  /-- UART.CMD.MISC0.NONE (R170). -/
  | uartCmdMisc0 (p : Port) (x : Bool) (dtx : Bool) (etx : Bool) (drx : Bool) (erx : Bool)
  /-- UART.CMD.MISC1.RESET_MRPTR (R171). -/
  | uartCmdMisc1 (p : Port) (x : Bool) (dtx : Bool) (etx : Bool) (drx : Bool) (erx : Bool)
  /-- UART.CMD.MISC2.DIS_RX_CLR_RXR (R172). -/
  | uartCmdMisc2 (p : Port) (x : Bool) (dtx : Bool) (etx : Bool) (drx : Bool) (erx : Bool)
  /-- UART.CMD.MISC3.CLR_TXR (R173). -/
  | uartCmdMisc3 (p : Port) (x : Bool) (dtx : Bool) (etx : Bool) (drx : Bool) (erx : Bool)
  /-- UART.CMD.MISC4.CLR_ERR (R174). -/
  | uartCmdMisc4 (p : Port) (x : Bool) (dtx : Bool) (etx : Bool) (drx : Bool) (erx : Bool)
  /-- UART.CMD.MISC5.NONE5 (R175). -/
  | uartCmdMisc5 (p : Port) (x : Bool) (dtx : Bool) (etx : Bool) (drx : Bool) (erx : Bool)
  /-- UART.CMD.MISC6.NONE6 (R176). -/
  | uartCmdMisc6 (p : Port) (x : Bool) (dtx : Bool) (etx : Bool) (drx : Bool) (erx : Bool)
  /-- UART.CMD.MISC7.NONE7 (R177). -/
  | uartCmdMisc7 (p : Port) (x : Bool) (dtx : Bool) (etx : Bool) (drx : Bool) (erx : Bool)
  /-- TMR.RD.C0 (R141). -/
  | tmrRdC0 (sz : AccSize)
  /-- TMR.RD.C1 (R141). -/
  | tmrRdC1 (sz : AccSize)
  /-- TMR.RD.C2 (R141). -/
  | tmrRdC2 (sz : AccSize)
  /-- TMR.RD.CTL (R142). -/
  | tmrRdCtl (sz : AccSize)
  /-- TMR.WR.C0 (R143). -/
  | tmrWrC0 (sz : AccSize) (v : Word)
  /-- TMR.WR.C1 (R143). -/
  | tmrWrC1 (sz : AccSize) (v : Word)
  /-- TMR.WR.C2 (R143). -/
  | tmrWrC2 (sz : AccSize) (v : Word)
  /-- TMR.WR.CTL (R144). -/
  | tmrWrCtl (sz : AccSize) (v : Word)
  /-- CSR.RD (R121). -/
  | csrRd (w : Bool) (k : BitVec 4) (sz : AccSize)
  /-- CSR.RD.NOP.0 (R122). -/
  | csrRdNop0 (x : BitVec 5) (sz : AccSize)
  /-- CSR.RD.NOP.1 (R122). -/
  | csrRdNop1 (x : BitVec 5) (sz : AccSize)
  /-- CSR.RD.NOP.2 (R122). -/
  | csrRdNop2 (x : BitVec 5) (sz : AccSize)
  /-- CSR.CLR (R124). -/
  | csrClr (k : BitVec 4) (sz : AccSize) (v : Word)
  /-- CSR.SET (R125). -/
  | csrSet (k : BitVec 4) (sz : AccSize) (v : Word)
  /-- CSR.WR.NOP.0 (R126). -/
  | csrWrNop0 (x : BitVec 5) (sz : AccSize) (v : Word)
  /-- CSR.WR.NOP.1 (R126). -/
  | csrWrNop1 (x : BitVec 5) (sz : AccSize) (v : Word)
  /-- CSR.WR.NOP.2 (R126). -/
  | csrWrNop2 (x : BitVec 5) (sz : AccSize) (v : Word)
  /-- FDC.RD.STATUS (R234). -/
  | fdcRdStatus (sz : AccSize)
  /-- FDC.RD.TRACK (R236). -/
  | fdcRdTrack (sz : AccSize)
  /-- FDC.RD.SECTOR (R238). -/
  | fdcRdSector (sz : AccSize)
  /-- FDC.RD.DATA (R240). -/
  | fdcRdData (sz : AccSize)
  /-- FDC.WR.CMD (R235). -/
  | fdcWrCmd (sz : AccSize) (v : Word)
  /-- FDC.WR.TRACK (R237). -/
  | fdcWrTrack (sz : AccSize) (v : Word)
  /-- FDC.WR.SECTOR (R239). -/
  | fdcWrSector (sz : AccSize) (v : Word)
  /-- FDC.WR.DATA (R241). -/
  | fdcWrData (sz : AccSize) (v : Word)
  /-- FDC.RESTORE (R245). -/
  | fdcRestore (h : Bool) (ver : Bool) (r : BitVec 2)
  /-- FDC.SEEK (R246). -/
  | fdcSeek (h : Bool) (ver : Bool) (r : BitVec 2)
  /-- FDC.STEP (R247). -/
  | fdcStep (u : Bool) (h : Bool) (ver : Bool) (r : BitVec 2)
  /-- FDC.STEP_IN (R248). -/
  | fdcStepIn (u : Bool) (h : Bool) (ver : Bool) (r : BitVec 2)
  /-- FDC.STEP_OUT (R249). -/
  | fdcStepOut (u : Bool) (h : Bool) (ver : Bool) (r : BitVec 2)
  /-- FDC.READ_SEC (R252). -/
  | fdcReadSec (l : Bool) (e : Bool) (side : Bool) (x : Bool)
  /-- FDC.READ_SEC_MULTI (R253). -/
  | fdcReadSecMulti (l : Bool) (e : Bool) (side : Bool) (x : Bool)
  /-- FDC.WRITE_SEC (R254). -/
  | fdcWriteSec (l : Bool) (e : Bool) (side : Bool) (x : Bool)
  /-- FDC.WRITE_SEC_MULTI (R255). -/
  | fdcWriteSecMulti (l : Bool) (e : Bool) (side : Bool) (x : Bool)
  /-- FDC.READ_ADDRESS (R256). -/
  | fdcReadAddress (y : Bool) (e : Bool) (side : Bool) (x : Bool)
  /-- FDC.FORCE_INTERRUPT (R259). -/
  | fdcForceInterrupt (cond : BitVec 4)
  /-- FDC.READ_TRACK (R257). -/
  | fdcReadTrack (y : Bool) (e : Bool) (side : Bool) (x : Bool)
  /-- FDC.WRITE_TRACK (R258). -/
  | fdcWriteTrack (y : Bool) (e : Bool) (side : Bool) (x : Bool)
  /-- NV.RD (R294). -/
  | nvRd (off : Nat) (sz : AccSize)
  /-- NV.WR (R295). -/
  | nvWr (off : Nat) (sz : AccSize) (v : Word)
  deriving DecidableEq, Repr

end Sys2Proof
end

