-- ==== Sys2Proof/Machine/State.lean ====
section
/-! DEFINITION. The state of the block (R20 to R40), the inputs and outputs beside it (R37, R38), the
operations the agents have issued (R2, R101), the reasons a step can stop, and the state after reset. -/

namespace Sys2Proof.Machine

/-- The system control/interrupt status register (R22). -/
structure Csr where
  bits : Half
  deriving DecidableEq, Repr

/-- One timer channel (R23). -/
structure TmrChannel where
  divider : Half
  counter : Half
  deriving DecidableEq, Repr

/-- The timer's three channels (R23). -/
structure Tmr where
  c0 : TmrChannel
  c1 : TmrChannel
  c2 : TmrChannel
  deriving DecidableEq, Repr

/-- One port of the UART (R24; the bits of `status` are those of R25). -/
structure UartPort where
  mode0 : Byte
  mode1 : Byte
  modePtr : BitVec 1
  cmd : Byte
  status : Byte
  rxbuf : Byte
  txbuf : Byte
  txEn : Bool
  rxEn : Bool
  deriving DecidableEq, Repr

/-- The UART: two ports and the shared registers (R24 to R29). -/
structure Uart where
  a : UartPort
  b : UartPort
  istat : Byte
  imask : Byte
  acr : Byte
  counterSet : Half
  counterValue : Half
  counterEnabled : Bool
  deriving DecidableEq, Repr

/-- `fdc.cmd_type` (R31). -/
inductive CmdType where
  | typeI | typeII | typeIII | typeIV
  deriving DecidableEq, Repr

/-- `fdc.step_dir`: `inward` is +1, `outward` is -1 (R35). -/
inductive StepDir where
  | inward | outward
  deriving DecidableEq, Repr

/-- `fdc.phase` (R35). -/
inductive Phase where
  | idle
  | exec (n : Nat)
  | waitDrq
  deriving DecidableEq, Repr

/-- The direction of a transfer (R35). -/
inductive XferDir where
  | toHost | toDisk
  deriving DecidableEq, Repr

/-- What a transfer moves: a region of the disk image or the ID record (R35). -/
inductive XferSource where
  | image | id
  deriving DecidableEq, Repr

/-- A transfer descriptor (R35, R38). Offsets and lengths are counts of bytes of the image (R72). -/
structure Xfer where
  dir : XferDir
  source : XferSource
  offset : Nat
  length : Nat
  deriving DecidableEq, Repr

/-- The six bytes of the ID record, in their order (R35, R256). -/
structure IdField where
  track : Byte
  side : Byte
  sector : Byte
  sizeCode : Byte
  crcHigh : Byte
  crcLow : Byte
  deriving DecidableEq, Repr

/-- The floppy controller (R31, R35). `physTrack` is the head position, 0 to 79. -/
structure Fdc where
  status : Byte
  cmd : Byte
  cmdType : CmdType
  track : Byte
  sector : Byte
  data : Byte
  side : Bool
  drq : Bool
  physTrack : Nat
  stepDir : StepDir
  phase : Phase
  multi : Bool
  xfer : Option Xfer
  idField : IdField
  deriving DecidableEq, Repr

/-- NVRAM contents: the bytes that differ from `NVRAM_FILL`, offsets strictly rising (log 12). -/
abbrev Memory := List Host.Cell

/-- The canonical form of `Memory`: offsets strictly rise and no entry holds what an unlisted offset
reads as. -/
abbrev Memory.wf (m : Memory) : Prop :=
  m.Pairwise (fun c d => c.1 < d.1) ∧ ∀ c ∈ m, c.2 ≠ Config.nvramFill

/-- The non-volatile store (R36). Before allocation `bytes` says nothing. -/
structure Nv where
  bytes : Memory
  allocated : Bool
  deriving DecidableEq, Repr

/-- The external inputs (R37), not the block's own state: the drive inputs, whether the store can be allocated
(R299), the answer `KbdPoll()` gives at the next UART tick, and the draws: the scripted answers first, then
the opaque `Config.draw` at `drawCount` (log 3). -/
structure Inputs where
  fdcReady : Bool
  fdcWp : Bool
  storeAvailable : Bool
  kbd : Option Byte
  draws : List Word
  drawCount : Nat
  deriving DecidableEq, Repr

/-- An event of the output history (R38). -/
inductive OutEvent where
  | irq (vector priority : Nat)
  | tx (port : Port) (byte : Byte)
  deriving DecidableEq, Repr

/-- The value of a read, of exactly the access's size (R9). -/
inductive BusData where
  | b8 (v : BitVec 8)
  | b16 (v : BitVec 16)
  | b32 (v : BitVec 32)
  deriving DecidableEq, Repr

/-- What an operation returns (R8 `return v`; the image of R298). -/
inductive Returned where
  | bus (d : BusData)
  | image (bytes : List Byte)
  deriving DecidableEq, Repr

/-- The direction of an access at a physical address (R70). -/
inductive AccessDir where
  | read | write
  deriving DecidableEq, Repr

/-- An operation an agent issues on the block (R2, R5, R101, R102). -/
inductive Op where
  /-- A bus access or a command byte, device-relative (R74, R90). -/
  | access (a : Access)
  /-- An access at a physical address, before the router (R70). -/
  | phys (dir : AccessDir) (pa : Nat) (size : AccSize) (value : Word)
  /-- `Service(dev)` (R101). -/
  | service (dev : Device)
  /-- `Reset(dev)` (R101). -/
  | reset (dev : Device)
  /-- `FdcDrqAck()` (R260). -/
  | fdcDrqAck
  /-- `FdcDataLate()` (R261). -/
  | fdcDataLate
  /-- `NvLoad(image)` (R297). -/
  | nvLoad (image : List Byte)
  /-- `NvSave()` (R298). -/
  | nvSave
  /-- The host sets the answer of the next `KbdPoll()` (R102). -/
  | kbd (answer : Option Byte)
  /-- The host sets `fdc_ready` and `fdc_wp` (R102, R262). -/
  | input (ready wp : Bool)
  deriving DecidableEq, Repr

/-- The whole state: the block's `(csr, tmr, uart, fdc, nv)` (R20) and, beside it, the parameters (R6), the
inputs (R37), the outputs (R38), what the last operation returned, and the operations still to run, oldest
first (R84). -/
structure State where
  csr : Csr
  tmr : Tmr
  uart : Uart
  fdc : Fdc
  nv : Nv
  params : Config.Params
  inputs : Inputs
  history : List OutEvent
  returned : Option Returned
  pending : List Op
  deriving DecidableEq, Repr

/-- The faults of R311, the only ones of the block. Each ends the operation with no state change and no value.
All are safe: the run stops where the spec says the operation ends. -/
inductive Fault where
  /-- Raised by the first `Reset(nv)` when the store cannot be allocated (R299). Fatal. Safe. -/
  | nvAlloc
  /-- Raised by `NV.RD`, `NV.WR`, `NvLoad` and `NvSave` before the first `Reset(nv)` (R292). Safe. -/
  | nvUnallocated
  /-- Raised by `NV.RD` and `NV.WR` when `offset + size/8 > NVRAM_SIZE` (R293). Safe. -/
  | nvRange
  /-- Raised by `NvLoad` when the image's length is not `NVRAM_SIZE` (R297). Safe. -/
  | nvImageSize
  deriving DecidableEq, Repr

/-- The reasons to refuse. The spec treats no case as a refusal (93_implementation_defined.md), so no
operation is refused. -/
inductive Refusal where
  /-- Raised by an arm of `exec` whose instruction has no meaning yet; no arm does. Safe. -/
  | notModelled (mnemonic : String)
  deriving DecidableEq, Repr

/-- The outcome of one operation. -/
abbrev Result := Host.Outcome State Fault Refusal

/-- A port after `Reset(uart)` (R40, R342). -/
def UartPort.reset : UartPort :=
  { mode0 := 0, mode1 := 0, modePtr := 0, cmd := 0, status := 0, rxbuf := 0, txbuf := 0, txEn := false, rxEn := false }

/-- The UART after `Reset(uart)` (R40, R342). -/
def Uart.reset : Uart :=
  { a := .reset, b := .reset, istat := 0, imask := 0, acr := 0, counterSet := 0, counterValue := 0,
    counterEnabled := false }

/-- A channel after `Reset(tmr)` (R40, R341). -/
def TmrChannel.reset : TmrChannel := { divider := 0, counter := 0 }

/-- The timer after `Reset(tmr)` (R40, R341). -/
def Tmr.reset : Tmr := { c0 := .reset, c1 := .reset, c2 := .reset }

/-- The floppy controller after `Reset(fdc)` (R40, R343). -/
def Fdc.reset : Fdc :=
  { status := 0, cmd := 0, cmdType := .typeI, track := 0, sector := 0, data := 0, side := false, drq := false,
    physTrack := 0, stepDir := .inward, phase := .idle, multi := false, xfer := none,
    idField := { track := 0, side := 0, sector := 0, sizeCode := 0, crcHigh := 0, crcLow := 0 } }

/-- The store after the first `Reset(nv)`: allocated, every byte `NVRAM_FILL` (R40, R344). -/
def Nv.reset : Nv := { bytes := [], allocated := true }

/-- The store at power-on, before the first `Reset(nv)`: not allocated (R36). -/
def Nv.powerOn : Nv := { bytes := [], allocated := false }

/-- The inputs before the host has set any. DESIGN CHOICE (log 3, log 4, log 5): no image attached, no
character offered, no draw scripted. -/
def Inputs.initial : Inputs :=
  { fdcReady := false, fdcWp := false, storeAvailable := true, kbd := none, draws := [], drawCount := 0 }

/-- The state after `reset all` (R40, R347) of a machine with given parameters: no event yet, no operation
issued yet. -/
def State.resetWith (p : Config.Params) : State :=
  { csr := { bits := 0 }, tmr := .reset, uart := .reset, fdc := .reset, nv := .reset, params := p,
    inputs := .initial, history := [], returned := none, pending := [] }

/-- The state at power-on, before any reset: the store is not allocated (R36). The spec gives the other devices no
value there, so theirs are arguments (log 23). -/
def State.powerOn (p : Config.Params) (csr : Csr) (tmr : Tmr) (uart : Uart) (fdc : Fdc) : State :=
  { csr := csr, tmr := tmr, uart := uart, fdc := fdc, nv := .powerOn, params := p, inputs := .initial,
    history := [], returned := none, pending := [] }

/-- The machine right after reset (R40, R347). The OPEN parameters of R6 are the opaque `Config.params`. -/
def State.reset : State := .resetWith Config.params

end Sys2Proof.Machine
end

