-- ==== Sys2Proof/Machine/Flags.lean ====
section
/-! DEFINITION. Bit positions and every computation of a status or interrupt bit: the UART status and istat
bits (R25, R26, R162), and the floppy status byte in its two layouts (R32 to R34, R233, R250). -/

namespace Sys2Proof.Machine

/-- `v[i] <- b` (R7, R8). -/
def setBit {n : Nat} (v : BitVec n) (i : Nat) (b : Bool) : BitVec n :=
  if b then v ||| BitVec.twoPow n i else v &&& ~~~(BitVec.twoPow n i)

/-! ## UART -/

/-- Bit RXR of a port's status (R25). -/
def rxrBit : Nat := 0
/-- Bit TXR of a port's status (R25). -/
def txrBit : Nat := 2
/-- Bit TXE of a port's status (R25). -/
def txeBit : Nat := 3

/-- `TxBit(p)`: TAI or TBI (R26). -/
def txBit : Port → Nat
  | .a => 0
  | .b => 4

/-- `RxBit(p)`: RAI or RBI (R26). -/
def rxBit : Port → Nat
  | .a => 1
  | .b => 5

/-- CRI (R26). -/
def criBit : Nat := 3

/-- Port p of the UART. -/
def Uart.port (u : Uart) : Port → UartPort
  | .a => u.a
  | .b => u.b

/-- Replaces port p of the UART. -/
def Uart.setPort (u : Uart) (p : Port) (q : UartPort) : Uart :=
  match p with
  | .a => { u with a := q }
  | .b => { u with b := q }

/-- The UART interrupt is live: `istat & imask ≠ 0` (R27). -/
def Uart.live (u : Uart) : Bool := decide (u.istat &&& u.imask ≠ 0)

/-- TXR and TXE of one port follow its transmitter enable (R162). -/
def UartPort.txStatus (q : UartPort) : UartPort :=
  { q with status := setBit (setBit q.status txrBit q.txEn) txeBit q.txEn }

/-- TXR, TXE and the transmit istat bits of both ports (R162, all of it but the recompute). -/
def Uart.txStatus (u : Uart) : Uart :=
  { u with
    a := u.a.txStatus
    b := u.b.txStatus
    istat := setBit (setBit u.istat (txBit .a) u.a.txEn) (txBit .b) u.b.txEn }

/-- RXR and the receive istat bit of port p become `b` (R164, R165, R169, R172). -/
def Uart.setRx (u : Uart) (p : Port) (b : Bool) : Uart :=
  { u.setPort p { u.port p with status := setBit (u.port p).status rxrBit b } with
    istat := setBit u.istat (rxBit p) b }

/-! ## Floppy controller -/

/-- BUSY as a stored status (R235): bit 0. -/
def fdcBusyStatus : Byte := 0x01
/-- LOST_DATA as a finishing status (R261): bit 2 of the Type II/III layout (R33). -/
def fdcLostDataStatus : Byte := 0x04
/-- RNF as a finishing status (R251): bit 4 of the Type II/III layout (R33). -/
def fdcRnfStatus : Byte := 0x10
/-- WP as a finishing status (R251, R258): bit 6 of the Type II/III layout (R33). -/
def fdcWpStatus : Byte := 0x40

/-- BUSY, bit 0 of `fdc.status` (R31). -/
def Fdc.busy (f : Fdc) : Bool := f.status.getLsbD 0

/-- The layout of the status byte is Type I when `cmd_type` is I or IV (R34). -/
def CmdType.layoutI : CmdType → Bool
  | .typeI => true
  | .typeII => false
  | .typeIII => false
  | .typeIV => true

/-- `Class(b)` (R231). -/
def fdcClass (b : Byte) : CmdType :=
  match (b.extractLsb' 4 4).toNat with
  | 0x8 => .typeII
  | 0x9 => .typeII
  | 0xA => .typeII
  | 0xB => .typeII
  | 0xC => .typeIII
  | 0xD => .typeIV
  | 0xE => .typeIII
  | 0xF => .typeIII
  | _ => .typeI

/-- A status byte in the Type I layout: NRDY, INDEX, TK_0 and WP are live (R32, R233). -/
def fdcStatusI (f : Fdc) (ready wp index : Bool) : Byte :=
  setBit (setBit (setBit (setBit f.status 7 (!ready)) 1 index) 2 (f.physTrack == 0)) 6 wp

/-- A status byte in the Type II/III layout: NRDY is live and bit 1 shows DRQ (R33, R233). -/
def fdcStatusII (f : Fdc) (ready : Bool) : Byte :=
  setBit (setBit f.status 7 (!ready)) 1 f.drq

/-- The track register agrees with the head position (R250, R251). -/
def Fdc.onTrack (f : Fdc) : Bool := f.track.toNat == f.physTrack

/-- The status a Type I command finishes with (R250). -/
def typeIStatus (f : Fdc) (ready h ver : Bool) : Byte :=
  setBit (setBit (setBit 0 2 (f.physTrack == 0)) 4 (ver && !(ready && f.onTrack))) 5 (h || ver)

end Sys2Proof.Machine
end

