-- ==== Sys2Proof/WellFormed.lean ====
section
/-! DEFINITION. Which operations are well formed: a write delivers a value that fits its size (R9, R74).
The other operands are exact in their types. -/

namespace Sys2Proof

/-- `0 ≤ value < 2^size` (R9, R74). -/
def valueFits (sz : AccSize) (v : Word) : Bool := decide (v.toNat < 2 ^ sz.bits)

/-- The operation is one a bus master can issue. -/
def Instr.wellFormed : Instr → Bool
  | .uartRdMra _ => true
  | .uartRdSra _ => true
  | .uartRdRsv2 _ => true
  | .uartRdRhra _ => true
  | .uartRdIpcr _ => true
  | .uartRdIsr _ => true
  | .uartRdCtu _ => true
  | .uartRdCtl _ => true
  | .uartRdMrb _ => true
  | .uartRdSrb _ => true
  | .uartRdRsv10 _ => true
  | .uartRdRhrb _ => true
  | .uartRdRsv12 _ => true
  | .uartRdRsv13 _ => true
  | .uartRdStart _ => true
  | .uartRdStop _ => true
  | .uartWrMra sz v => valueFits sz v
  | .uartWrCsra sz v => valueFits sz v
  | .uartWrCra sz v => valueFits sz v
  | .uartWrThra sz v => valueFits sz v
  | .uartWrAcr sz v => valueFits sz v
  | .uartWrImr sz v => valueFits sz v
  | .uartWrCtur sz v => valueFits sz v
  | .uartWrCtlr sz v => valueFits sz v
  | .uartWrMrb sz v => valueFits sz v
  | .uartWrCsrb sz v => valueFits sz v
  | .uartWrCrb sz v => valueFits sz v
  | .uartWrThrb sz v => valueFits sz v
  | .uartWrRsv12 sz v => valueFits sz v
  | .uartWrRsv13 sz v => valueFits sz v
  | .uartWrSopr sz v => valueFits sz v
  | .uartWrRopr sz v => valueFits sz v
  | .uartCmdMisc0 _ _ _ _ _ _ => true
  | .uartCmdMisc1 _ _ _ _ _ _ => true
  | .uartCmdMisc2 _ _ _ _ _ _ => true
  | .uartCmdMisc3 _ _ _ _ _ _ => true
  | .uartCmdMisc4 _ _ _ _ _ _ => true
  | .uartCmdMisc5 _ _ _ _ _ _ => true
  | .uartCmdMisc6 _ _ _ _ _ _ => true
  | .uartCmdMisc7 _ _ _ _ _ _ => true
  | .tmrRdC0 _ => true
  | .tmrRdC1 _ => true
  | .tmrRdC2 _ => true
  | .tmrRdCtl _ => true
  | .tmrWrC0 sz v => valueFits sz v
  | .tmrWrC1 sz v => valueFits sz v
  | .tmrWrC2 sz v => valueFits sz v
  | .tmrWrCtl sz v => valueFits sz v
  | .csrRd _ _ _ => true
  | .csrRdNop0 _ _ => true
  | .csrRdNop1 _ _ => true
  | .csrRdNop2 _ _ => true
  | .csrClr _ sz v => valueFits sz v
  | .csrSet _ sz v => valueFits sz v
  | .csrWrNop0 _ sz v => valueFits sz v
  | .csrWrNop1 _ sz v => valueFits sz v
  | .csrWrNop2 _ sz v => valueFits sz v
  | .fdcRdStatus _ => true
  | .fdcRdTrack _ => true
  | .fdcRdSector _ => true
  | .fdcRdData _ => true
  | .fdcWrCmd sz v => valueFits sz v
  | .fdcWrTrack sz v => valueFits sz v
  | .fdcWrSector sz v => valueFits sz v
  | .fdcWrData sz v => valueFits sz v
  | .fdcRestore _ _ _ => true
  | .fdcSeek _ _ _ => true
  | .fdcStep _ _ _ _ => true
  | .fdcStepIn _ _ _ _ => true
  | .fdcStepOut _ _ _ _ => true
  | .fdcReadSec _ _ _ _ => true
  | .fdcReadSecMulti _ _ _ _ => true
  | .fdcWriteSec _ _ _ _ => true
  | .fdcWriteSecMulti _ _ _ _ => true
  | .fdcReadAddress _ _ _ _ => true
  | .fdcForceInterrupt _ => true
  | .fdcReadTrack _ _ _ _ => true
  | .fdcWriteTrack _ _ _ _ => true
  | .nvRd _ _ => true
  | .nvWr _ sz v => valueFits sz v

/-- Every access is of one of the three sizes of R74. -/
theorem AccSize.bits_mem (sz : AccSize) : sz.bits = 8 ∨ sz.bits = 16 ∨ sz.bits = 32 := by
  cases sz <;> decide

end Sys2Proof
end

