-- ==== Sys2Proof/Decode.lean ====
section
/-! DEFINITION. The decoder, from an access to its operation (R90 to R97), total and rejecting by name;
after it the encoder; last, `decodeTableWord`. -/

namespace Sys2Proof

/-- Why an access names no operation. -/
inductive DecodeError where
  /-- The offset lies outside the device's window (R70, R71, R90): no row of the table matches it. -/
  | outsideWindow (dev : RegDevice) (offset : Nat)
  deriving DecidableEq, Repr

/-- What the decoder answers. -/
inductive Decoded where
  | instr (i : Instr)
  | rejected (e : DecodeError)
  deriving DecidableEq, Repr

/-- The operation, or none. -/
def Decoded.toOption : Decoded → Option Instr
  | .instr i => some i
  | .rejected _ => none

/-- The low `size` bits of a value: what an access of that size delivers (R9, R74, R290). -/
def AccSize.keep : AccSize → Word → Word
  | .w8, v => (v.setWidth 8).setWidth 32
  | .w16, v => (v.setWidth 16).setWidth 32
  | .w32, v => v

/-- UART reads by offset (R91). -/
def decodeUartRead (off : Nat) (sz : AccSize) : Decoded :=
  match off with
  | 0 => .instr (.uartRdMra sz)
  | 1 => .instr (.uartRdSra sz)
  | 2 => .instr (.uartRdRsv2 sz)
  | 3 => .instr (.uartRdRhra sz)
  | 4 => .instr (.uartRdIpcr sz)
  | 5 => .instr (.uartRdIsr sz)
  | 6 => .instr (.uartRdCtu sz)
  | 7 => .instr (.uartRdCtl sz)
  | 8 => .instr (.uartRdMrb sz)
  | 9 => .instr (.uartRdSrb sz)
  | 10 => .instr (.uartRdRsv10 sz)
  | 11 => .instr (.uartRdRhrb sz)
  | 12 => .instr (.uartRdRsv12 sz)
  | 13 => .instr (.uartRdRsv13 sz)
  | 14 => .instr (.uartRdStart sz)
  | 15 => .instr (.uartRdStop sz)
  | n => .rejected (.outsideWindow .uart n)

/-- UART writes by offset (R91). -/
def decodeUartWrite (off : Nat) (sz : AccSize) (v : Word) : Decoded :=
  match off with
  | 0 => .instr (.uartWrMra sz v)
  | 1 => .instr (.uartWrCsra sz v)
  | 2 => .instr (.uartWrCra sz v)
  | 3 => .instr (.uartWrThra sz v)
  | 4 => .instr (.uartWrAcr sz v)
  | 5 => .instr (.uartWrImr sz v)
  | 6 => .instr (.uartWrCtur sz v)
  | 7 => .instr (.uartWrCtlr sz v)
  | 8 => .instr (.uartWrMrb sz v)
  | 9 => .instr (.uartWrCsrb sz v)
  | 10 => .instr (.uartWrCrb sz v)
  | 11 => .instr (.uartWrThrb sz v)
  | 12 => .instr (.uartWrRsv12 sz v)
  | 13 => .instr (.uartWrRsv13 sz v)
  | 14 => .instr (.uartWrSopr sz v)
  | 15 => .instr (.uartWrRopr sz v)
  | n => .rejected (.outsideWindow .uart n)

/-- Timer reads by offset (R92). -/
def decodeTmrRead (off : Nat) (sz : AccSize) : Decoded :=
  match off with
  | 0 => .instr (.tmrRdC0 sz)
  | 1 => .instr (.tmrRdC1 sz)
  | 2 => .instr (.tmrRdC2 sz)
  | 3 => .instr (.tmrRdCtl sz)
  | n => .rejected (.outsideWindow .tmr n)

/-- Timer writes by offset (R92). -/
def decodeTmrWrite (off : Nat) (sz : AccSize) (v : Word) : Decoded :=
  match off with
  | 0 => .instr (.tmrWrC0 sz v)
  | 1 => .instr (.tmrWrC1 sz v)
  | 2 => .instr (.tmrWrC2 sz v)
  | 3 => .instr (.tmrWrCtl sz v)
  | n => .rejected (.outsideWindow .tmr n)

/-- Floppy controller reads by offset (R94). -/
def decodeFdcRead (off : Nat) (sz : AccSize) : Decoded :=
  match off with
  | 0 => .instr (.fdcRdStatus sz)
  | 1 => .instr (.fdcRdTrack sz)
  | 2 => .instr (.fdcRdSector sz)
  | 3 => .instr (.fdcRdData sz)
  | n => .rejected (.outsideWindow .fdc n)

/-- Floppy controller writes by offset (R94). -/
def decodeFdcWrite (off : Nat) (sz : AccSize) (v : Word) : Decoded :=
  match off with
  | 0 => .instr (.fdcWrCmd sz v)
  | 1 => .instr (.fdcWrTrack sz v)
  | 2 => .instr (.fdcWrSector sz v)
  | 3 => .instr (.fdcWrData sz v)
  | n => .rejected (.outsideWindow .fdc n)

/-- The device-relative offset of a selector, sel[6:0] (R90). -/
def selOffset (sel : Byte) : Nat := (sel.setWidth 7).toNat

/-- CSR reads: the pattern `0wkkkk11` names cause k = sel[5:2], every other one names nothing (R93, R120). -/
def decodeCsrRead (sel : Byte) (sz : AccSize) : Decoded :=
  match (sel.setWidth 2).toNat with
  | 0 => .instr (.csrRdNop0 (sel.extractLsb' 2 5) sz)
  | 1 => .instr (.csrRdNop1 (sel.extractLsb' 2 5) sz)
  | 2 => .instr (.csrRdNop2 (sel.extractLsb' 2 5) sz)
  | _ => .instr (.csrRd (sel.getLsbD 6) (sel.extractLsb' 2 4) sz)

/-- CSR writes: sel[6] selects the clear or the set window (R93, R120). -/
def decodeCsrWrite (sel : Byte) (sz : AccSize) (v : Word) : Decoded :=
  match (sel.setWidth 2).toNat with
  | 0 => .instr (.csrWrNop0 (sel.extractLsb' 2 5) sz v)
  | 1 => .instr (.csrWrNop1 (sel.extractLsb' 2 5) sz v)
  | 2 => .instr (.csrWrNop2 (sel.extractLsb' 2 5) sz v)
  | _ =>
    if sel.getLsbD 6 then .instr (.csrSet (sel.extractLsb' 2 4) sz v)
    else .instr (.csrClr (sel.extractLsb' 2 4) sz v)

/-- A read of a register device (R90, R75: the size never changes which row matches). -/
def decodeBusRead (dev : RegDevice) (sel : Byte) (sz : AccSize) : Decoded :=
  match dev with
  | .csr => decodeCsrRead sel sz
  | .tmr => decodeTmrRead (selOffset sel) sz
  | .uart => decodeUartRead (selOffset sel) sz
  | .fdc => decodeFdcRead (selOffset sel) sz

/-- A write of a register device. -/
def decodeBusWrite (dev : RegDevice) (sel : Byte) (sz : AccSize) (v : Word) : Decoded :=
  match dev with
  | .csr => decodeCsrWrite sel sz v
  | .tmr => decodeTmrWrite (selOffset sel) sz v
  | .uart => decodeUartWrite (selOffset sel) sz v
  | .fdc => decodeFdcWrite (selOffset sel) sz v

/-- A UART command byte, pattern `x(MISC)TtRr` (R96). -/
def decodeUartCommand (p : Port) (b : Byte) : Instr :=
  let x := b.getLsbD 7
  let dtx := b.getLsbD 3
  let etx := b.getLsbD 2
  let drx := b.getLsbD 1
  let erx := b.getLsbD 0
  match (b.extractLsb' 4 3).toNat with
  | 0 => .uartCmdMisc0 p x dtx etx drx erx
  | 1 => .uartCmdMisc1 p x dtx etx drx erx
  | 2 => .uartCmdMisc2 p x dtx etx drx erx
  | 3 => .uartCmdMisc3 p x dtx etx drx erx
  | 4 => .uartCmdMisc4 p x dtx etx drx erx
  | 5 => .uartCmdMisc5 p x dtx etx drx erx
  | 6 => .uartCmdMisc6 p x dtx etx drx erx
  | _ => .uartCmdMisc7 p x dtx etx drx erx

/-- A floppy command byte (R97, R232): every one of the 256 values is one row. -/
def decodeFdcCommand (b : Byte) : Instr :=
  let b3 := b.getLsbD 3
  let b2 := b.getLsbD 2
  let b1 := b.getLsbD 1
  let b0 := b.getLsbD 0
  let u := b.getLsbD 4
  let r := b.setWidth 2
  match (b.extractLsb' 4 4).toNat with
  | 0x0 => .fdcRestore b3 b2 r
  | 0x1 => .fdcSeek b3 b2 r
  | 0x2 => .fdcStep u b3 b2 r
  | 0x3 => .fdcStep u b3 b2 r
  | 0x4 => .fdcStepIn u b3 b2 r
  | 0x5 => .fdcStepIn u b3 b2 r
  | 0x6 => .fdcStepOut u b3 b2 r
  | 0x7 => .fdcStepOut u b3 b2 r
  | 0x8 => .fdcReadSec b3 b2 b1 b0
  | 0x9 => .fdcReadSecMulti b3 b2 b1 b0
  | 0xA => .fdcWriteSec b3 b2 b1 b0
  | 0xB => .fdcWriteSecMulti b3 b2 b1 b0
  | 0xC => .fdcReadAddress b3 b2 b1 b0
  | 0xD => .fdcForceInterrupt (b.setWidth 4)
  | 0xE => .fdcReadTrack b3 b2 b1 b0
  | _ => .fdcWriteTrack b3 b2 b1 b0

/-- The decoder. A written value is cut to the size the access delivers (R9, R290). -/
def decode : Access → Decoded
  | .bus dev sel sz v =>
    if sel.getLsbD 7 then decodeBusWrite dev sel sz (sz.keep v) else decodeBusRead dev sel sz
  | .nv sel off sz v =>
    if sel.getLsbD 7 then .instr (.nvWr off sz (sz.keep v)) else .instr (.nvRd off sz)
  | .uartCmd p b => .instr (decodeUartCommand p b)
  | .fdcCmd b => .instr (decodeFdcCommand b)

/-! ## The encoder -/

/-- A read access of a register device at an offset: sel = `0 ++ offset` (R90). -/
def busRead (dev : RegDevice) (off : BitVec 7) (sz : AccSize) : Access :=
  .bus dev (0#1 ++ off) sz 0

/-- A write access of a register device at an offset: sel = `1 ++ offset` (R90). -/
def busWrite (dev : RegDevice) (off : BitVec 7) (sz : AccSize) (v : Word) : Access :=
  .bus dev (1#1 ++ off) sz v

/-- A CSR offset: window bit, five bits, two low bits (R93). -/
def csrOffset (x : BitVec 5) (low : BitVec 2) : BitVec 7 := x ++ low

/-- A CSR offset that decodes: window, cause, `11` (R93). -/
def csrCauseOffset (w : Bool) (k : BitVec 4) : BitVec 7 := csrOffset (BitVec.ofBool w ++ k) 3

/-- A UART command byte from its fields (R96). -/
def uartCommandByte (x : Bool) (misc : BitVec 3) (dtx etx drx erx : Bool) : Byte :=
  BitVec.ofBool x ++ misc ++ BitVec.ofBool dtx ++ BitVec.ofBool etx ++ BitVec.ofBool drx ++ BitVec.ofBool erx

/-- A Type I byte of the RESTORE or SEEK form, `nnnnhVrr` (R97). -/
def typeIByte (nibble : BitVec 4) (h ver : Bool) (r : BitVec 2) : Byte :=
  nibble ++ BitVec.ofBool h ++ BitVec.ofBool ver ++ r

/-- A Type I byte of the step family, `nnnuhVrr` (R97). -/
def stepByte (top : BitVec 3) (u h ver : Bool) (r : BitVec 2) : Byte :=
  top ++ BitVec.ofBool u ++ BitVec.ofBool h ++ BitVec.ofBool ver ++ r

/-- A Type II or III byte, `nnnn` and four flag bits (R97). -/
def flagByte (nibble : BitVec 4) (b3 b2 b1 b0 : Bool) : Byte :=
  nibble ++ BitVec.ofBool b3 ++ BitVec.ofBool b2 ++ BitVec.ofBool b1 ++ BitVec.ofBool b0

/-- A Type IV byte, `1101IIII` (R97). -/
def forceByte (cond : BitVec 4) : Byte := 0xD#4 ++ cond

/-- The access of an operation, from the encoding tables R90 to R97. -/
def encode : Instr → Access
  | .uartRdMra sz => busRead .uart 0 sz
  | .uartRdSra sz => busRead .uart 1 sz
  | .uartRdRsv2 sz => busRead .uart 2 sz
  | .uartRdRhra sz => busRead .uart 3 sz
  | .uartRdIpcr sz => busRead .uart 4 sz
  | .uartRdIsr sz => busRead .uart 5 sz
  | .uartRdCtu sz => busRead .uart 6 sz
  | .uartRdCtl sz => busRead .uart 7 sz
  | .uartRdMrb sz => busRead .uart 8 sz
  | .uartRdSrb sz => busRead .uart 9 sz
  | .uartRdRsv10 sz => busRead .uart 10 sz
  | .uartRdRhrb sz => busRead .uart 11 sz
  | .uartRdRsv12 sz => busRead .uart 12 sz
  | .uartRdRsv13 sz => busRead .uart 13 sz
  | .uartRdStart sz => busRead .uart 14 sz
  | .uartRdStop sz => busRead .uart 15 sz
  | .uartWrMra sz v => busWrite .uart 0 sz v
  | .uartWrCsra sz v => busWrite .uart 1 sz v
  | .uartWrCra sz v => busWrite .uart 2 sz v
  | .uartWrThra sz v => busWrite .uart 3 sz v
  | .uartWrAcr sz v => busWrite .uart 4 sz v
  | .uartWrImr sz v => busWrite .uart 5 sz v
  | .uartWrCtur sz v => busWrite .uart 6 sz v
  | .uartWrCtlr sz v => busWrite .uart 7 sz v
  | .uartWrMrb sz v => busWrite .uart 8 sz v
  | .uartWrCsrb sz v => busWrite .uart 9 sz v
  | .uartWrCrb sz v => busWrite .uart 10 sz v
  | .uartWrThrb sz v => busWrite .uart 11 sz v
  | .uartWrRsv12 sz v => busWrite .uart 12 sz v
  | .uartWrRsv13 sz v => busWrite .uart 13 sz v
  | .uartWrSopr sz v => busWrite .uart 14 sz v
  | .uartWrRopr sz v => busWrite .uart 15 sz v
  | .uartCmdMisc0 p x dtx etx drx erx => .uartCmd p (uartCommandByte x 0 dtx etx drx erx)
  | .uartCmdMisc1 p x dtx etx drx erx => .uartCmd p (uartCommandByte x 1 dtx etx drx erx)
  | .uartCmdMisc2 p x dtx etx drx erx => .uartCmd p (uartCommandByte x 2 dtx etx drx erx)
  | .uartCmdMisc3 p x dtx etx drx erx => .uartCmd p (uartCommandByte x 3 dtx etx drx erx)
  | .uartCmdMisc4 p x dtx etx drx erx => .uartCmd p (uartCommandByte x 4 dtx etx drx erx)
  | .uartCmdMisc5 p x dtx etx drx erx => .uartCmd p (uartCommandByte x 5 dtx etx drx erx)
  | .uartCmdMisc6 p x dtx etx drx erx => .uartCmd p (uartCommandByte x 6 dtx etx drx erx)
  | .uartCmdMisc7 p x dtx etx drx erx => .uartCmd p (uartCommandByte x 7 dtx etx drx erx)
  | .tmrRdC0 sz => busRead .tmr 0 sz
  | .tmrRdC1 sz => busRead .tmr 1 sz
  | .tmrRdC2 sz => busRead .tmr 2 sz
  | .tmrRdCtl sz => busRead .tmr 3 sz
  | .tmrWrC0 sz v => busWrite .tmr 0 sz v
  | .tmrWrC1 sz v => busWrite .tmr 1 sz v
  | .tmrWrC2 sz v => busWrite .tmr 2 sz v
  | .tmrWrCtl sz v => busWrite .tmr 3 sz v
  | .csrRd w k sz => busRead .csr (csrCauseOffset w k) sz
  | .csrRdNop0 x sz => busRead .csr (csrOffset x 0) sz
  | .csrRdNop1 x sz => busRead .csr (csrOffset x 1) sz
  | .csrRdNop2 x sz => busRead .csr (csrOffset x 2) sz
  | .csrClr k sz v => busWrite .csr (csrCauseOffset false k) sz v
  | .csrSet k sz v => busWrite .csr (csrCauseOffset true k) sz v
  | .csrWrNop0 x sz v => busWrite .csr (csrOffset x 0) sz v
  | .csrWrNop1 x sz v => busWrite .csr (csrOffset x 1) sz v
  | .csrWrNop2 x sz v => busWrite .csr (csrOffset x 2) sz v
  | .fdcRdStatus sz => busRead .fdc 0 sz
  | .fdcRdTrack sz => busRead .fdc 1 sz
  | .fdcRdSector sz => busRead .fdc 2 sz
  | .fdcRdData sz => busRead .fdc 3 sz
  | .fdcWrCmd sz v => busWrite .fdc 0 sz v
  | .fdcWrTrack sz v => busWrite .fdc 1 sz v
  | .fdcWrSector sz v => busWrite .fdc 2 sz v
  | .fdcWrData sz v => busWrite .fdc 3 sz v
  | .fdcRestore h ver r => .fdcCmd (typeIByte 0 h ver r)
  | .fdcSeek h ver r => .fdcCmd (typeIByte 1 h ver r)
  | .fdcStep u h ver r => .fdcCmd (stepByte 1 u h ver r)
  | .fdcStepIn u h ver r => .fdcCmd (stepByte 2 u h ver r)
  | .fdcStepOut u h ver r => .fdcCmd (stepByte 3 u h ver r)
  | .fdcReadSec l e side x => .fdcCmd (flagByte 0x8 l e side x)
  | .fdcReadSecMulti l e side x => .fdcCmd (flagByte 0x9 l e side x)
  | .fdcWriteSec l e side x => .fdcCmd (flagByte 0xA l e side x)
  | .fdcWriteSecMulti l e side x => .fdcCmd (flagByte 0xB l e side x)
  | .fdcReadAddress y e side x => .fdcCmd (flagByte 0xC y e side x)
  | .fdcForceInterrupt cond => .fdcCmd (forceByte cond)
  | .fdcReadTrack y e side x => .fdcCmd (flagByte 0xE y e side x)
  | .fdcWriteTrack y e side x => .fdcCmd (flagByte 0xF y e side x)
  | .nvRd off sz => .nv 0x00 off sz 0
  | .nvWr off sz v => .nv 0x80 off sz v

/-! ## The words of spec/opcode_table.json -/

/-- The access that a bare word of spec/opcode_table.json stands for. A table word is 8 bits and names no
device, so several rows can match it. DESIGN CHOICE (log 7): the row with the most fixed bits wins, and the
earlier row of the table among equals. That gives, in turn: the UART selectors (8 fixed bits, offsets 0 to 15);
CSR.CLR and CSR.SET (4 fixed bits, sel[1:0] = 11 of a write); the floppy commands with 4 fixed bits; and
otherwise the UART command rows (3 fixed bits), taken at port A. Operand words are zero: an 8-bit access of
value 0 at NVRAM offset 0. -/
def tableAccess (nbits w : Nat) : Access :=
  let b : Byte := BitVec.ofNat 8 (w % 2 ^ nbits)
  if selOffset b < 16 then .bus .uart b .w8 0
  else if b.getLsbD 7 && b.getLsbD 1 && b.getLsbD 0 then .bus .csr b .w8 0
  else if b.getLsbD 7 || (b.extractLsb' 4 3).toNat == 1 then .fdcCmd b
  else .uartCmd .a b

/-- The operation the decoder reads from a word of spec/opcode_table.json, laid out by `tableAccess`. -/
def decodeTableWord (nbits w : Nat) : Option Instr := (decode (tableAccess nbits w)).toOption

end Sys2Proof
end

