-- ==== Sys2Proof/Machine/Operands.lean ====
section
/-! DEFINITION. The operand forms: what a write delivers (R9, R75), the value a read returns (R9), the
addresses of the router (R70, R71). -/

namespace Sys2Proof.Machine

/-- The byte a write stores into an 8-bit register, `value[7:0]` (R9, R75). -/
def writtenByte (sz : AccSize) (v : Word) : Byte := (sz.keep v).setWidth 8

/-- The 16 bits a write stores into a timer divider, `zext_16(value)[15:0]` (R75, R143). -/
def writtenHalf (sz : AccSize) (v : Word) : Half := (sz.keep v).setWidth 16

/-- A read's value: the rule's value zero-extended or truncated to the access's size (R9). -/
def readData {n : Nat} (sz : AccSize) (v : BitVec n) : BusData :=
  match sz with
  | .w8 => .b8 (v.setWidth 8)
  | .w16 => .b16 (v.setWidth 16)
  | .w32 => .b32 (v.setWidth 32)

/-- The number of bytes an NVRAM access covers, `size/8` (R290). -/
def byteCount : AccSize → Nat
  | .w8 => 1
  | .w16 => 2
  | .w32 => 4

/-- The base of a device's window (R70). -/
def windowBase (p : Config.Params) : Device → Nat
  | .csr => p.csrBase
  | .tmr => p.timerBase
  | .uart => p.uartBase
  | .fdc => p.fdcBase
  | .nv => p.nvramBase

/-- The size of a device's window (R71). -/
def windowSize (p : Config.Params) : Device → Nat
  | .csr => Config.csrWindow
  | .tmr => Config.timerWindow
  | .uart => Config.uartWindow
  | .fdc => Config.fdcWindow
  | .nv => p.nvramSize

/-- A physical address lies in a device's window (R70). -/
def inWindow (p : Config.Params) (d : Device) (pa : Nat) : Bool :=
  decide (windowBase p d ≤ pa ∧ pa < windowBase p d + windowSize p d)

/-- The device whose window holds a physical address (R70). D2 asks that the windows do not overlap; where they
do, the first of csr, tmr, uart, fdc, nv answers (log 14). -/
def route (p : Config.Params) (pa : Nat) : Option Device :=
  [Device.csr, .tmr, .uart, .fdc, .nv].find? (inWindow p · pa)

/-- A selector from its direction and a device-relative offset (R90). -/
def selector (dir : AccessDir) (off : Nat) : Byte :=
  match dir with
  | .read => 0#1 ++ BitVec.ofNat 7 off
  | .write => 1#1 ++ BitVec.ofNat 7 off

/-- The access the router makes of one at a physical address, offset = `pa − base` (R70). It is routed by its first
address alone, whatever its size: one that starts in the NVRAM window and runs past the window's end is still the
NVRAM's, and faults NV_RANGE there (DESIGN CHOICE, log 14). -/
def routedAccess (p : Config.Params) (dir : AccessDir) (pa : Nat) (sz : AccSize) (v : Word) : Option Access :=
  match route p pa with
  | some .csr => some (.bus .csr (selector dir (pa - p.csrBase)) sz v)
  | some .tmr => some (.bus .tmr (selector dir (pa - p.timerBase)) sz v)
  | some .uart => some (.bus .uart (selector dir (pa - p.uartBase)) sz v)
  | some .fdc => some (.bus .fdc (selector dir (pa - p.fdcBase)) sz v)
  | some .nv => some (.nv (selector dir 0) (pa - p.nvramBase) sz v)
  | none => none

end Sys2Proof.Machine
end

