-- ==== Sys2Proof/Machine/Ops.lean ====
section
/-! DEFINITION. The shared operations: the CSR cause lines (R123), the output history (R38), a read's answer,
draws (R8), the one operation that raises the UART interrupt (R161), and the NVRAM's bytes (R290). -/

namespace Sys2Proof.Machine

/-! ## Outputs, draws and cause lines -/

/-- `return v` (R8). -/
def State.answer (s : State) (r : Returned) : State := { s with returned := some r }

/-- A read returns a value at the access's size (R9). -/
def State.answerRead {n : Nat} (s : State) (sz : AccSize) (v : BitVec n) : State :=
  s.answer (.bus (readData sz v))

/-- Appends an event to the output history (R38). -/
def State.emit (s : State) (e : OutEvent) : State := { s with history := s.history ++ [e] }

/-- `CsrSet(k)` (R123). -/
def State.csrSet (s : State) (k : Nat) : State := { s with csr := { bits := setBit s.csr.bits k true } }

/-- `CsrClear(k)` (R123). -/
def State.csrClear (s : State) (k : Nat) : State := { s with csr := { bits := setBit s.csr.bits k false } }

/-- Replaces the UART. -/
def State.withUart (s : State) (u : Uart) : State := { s with uart := u }

/-- Replaces the floppy controller. -/
def State.withFdc (s : State) (f : Fdc) : State := { s with fdc := f }

/-- Replaces the timer. -/
def State.withTmr (s : State) (t : Tmr) : State := { s with tmr := t }

/-- Replaces the store's bytes. -/
def State.withBytes (s : State) (m : Memory) : State := { s with nv := { s.nv with bytes := m } }

/-- The word the next draw is made from: the script's first answer, else the opaque `Config.draw` (R8, log 3). -/
def State.drawn (s : State) : Word :=
  match s.inputs.draws with
  | d :: _ => d
  | [] => Config.draw s.inputs.drawCount

/-- The state after one draw: the answer is used up. -/
def State.afterDraw (s : State) : State :=
  { s with inputs := { s.inputs with draws := s.inputs.draws.tail, drawCount := s.inputs.drawCount + 1 } }

/-- `Recompute()`, the one operation that raises or drops the UART interrupt (R161): the CSR cause follows the
condition, and a live condition emits a CPU request each time (R314, R351). -/
def State.recompute (s : State) : State :=
  if s.uart.live then
    (s.csrSet Config.csrUartCause).emit (.irq s.params.uartIrqVector s.params.uartIrqPriority)
  else s.csrClear Config.csrUartCause

/-! ## The NVRAM's bytes -/

/-- The byte at an offset; an unlisted offset reads `NVRAM_FILL`, the reset contents (R36, R291). -/
def Memory.read : Memory → Nat → Byte
  | [], _ => Config.nvramFill
  | (b, v) :: m, a => if a = b then v else Memory.read m a

/-- Stores a byte and keeps the canonical form. -/
def Memory.write : Memory → Nat → Byte → Memory
  | [], a, v => if v = Config.nvramFill then [] else [(a, v)]
  | (b, w) :: m, a, v =>
    if a < b then
      if v = Config.nvramFill then (b, w) :: m else (a, v) :: (b, w) :: m
    else if a = b then
      if v = Config.nvramFill then m else (a, v) :: m
    else (b, w) :: Memory.write m a v

/-- `NvRead(o, n)`: n bytes from offset o, the byte at o most significant (R290). -/
def nvRead (m : Memory) (o : Nat) : Nat → Word
  | 0 => 0
  | n + 1 => (nvRead m o n <<< 8) ||| (Memory.read m (o + n)).setWidth 32

/-- `NvWrite(o, n, v)`: the low 8n bits of v to offsets o to o+n−1, the most significant byte at o (R290). -/
def nvWrite (m : Memory) (o : Nat) : Nat → Word → Memory
  | 0, _ => m
  | n + 1, v => nvWrite (Memory.write m (o + n) (v.setWidth 8)) o n (v >>> 8)

/-- The contents that hold a list of bytes from an offset on (R297). -/
def Memory.ofImage : Nat → List Byte → Memory
  | _, [] => []
  | o, b :: bs =>
    if b = Config.nvramFill then Memory.ofImage (o + 1) bs else (o, b) :: Memory.ofImage (o + 1) bs

/-- The first n bytes, byte 0 first (R298). -/
def Memory.toImage (m : Memory) (n : Nat) : List Byte := (List.range n).map (Memory.read m)

/-- The checks of an NVRAM access, in the order of R311: allocated (R292), then in range as a whole (R293). -/
def nvCheck (s : State) (o n : Nat) : Option Fault :=
  if s.nv.allocated = false then some .nvUnallocated
  else if s.params.nvramSize < o + n then some .nvRange
  else none

end Sys2Proof.Machine
end

