-- ==== Sys2Proof/Machine/CsrFamily.lean ====
section
/-! DEFINITION. The meanings of the CSR operations (R120 to R126). -/

namespace Sys2Proof.Machine

/-- CSR.RD (R121): cause k in bit 0, at either window. -/
def execCsrRd (_w : Bool) (k : BitVec 4) (sz : AccSize) (s : State) : Result :=
  .next (s.answerRead sz (BitVec.ofBool (s.csr.bits.getLsbD k.toNat)))

/-- CSR.RD.NOP, sel[1:0] = 00 (R122): returns 0. -/
def execCsrRdNop0 (_x : BitVec 5) (sz : AccSize) (s : State) : Result := .next (s.answerRead sz (0 : Byte))

/-- CSR.RD.NOP, sel[1:0] = 01 (R122): returns 0. -/
def execCsrRdNop1 (_x : BitVec 5) (sz : AccSize) (s : State) : Result := .next (s.answerRead sz (0 : Byte))

/-- CSR.RD.NOP, sel[1:0] = 10 (R122): returns 0. -/
def execCsrRdNop2 (_x : BitVec 5) (sz : AccSize) (s : State) : Result := .next (s.answerRead sz (0 : Byte))

/-- CSR.CLR (R124): clears cause k, whatever the payload. -/
def execCsrClr (k : BitVec 4) (_sz : AccSize) (_v : Word) (s : State) : Result := .next (s.csrClear k.toNat)

/-- CSR.SET (R125): sets cause k, whatever the payload; it emits nothing. -/
def execCsrSet (k : BitVec 4) (_sz : AccSize) (_v : Word) (s : State) : Result := .next (s.csrSet k.toNat)

/-- CSR.WR.NOP, sel[1:0] = 00 (R126): nothing. -/
def execCsrWrNop0 (_x : BitVec 5) (_sz : AccSize) (_v : Word) (s : State) : Result := .next s

/-- CSR.WR.NOP, sel[1:0] = 01 (R126): nothing. -/
def execCsrWrNop1 (_x : BitVec 5) (_sz : AccSize) (_v : Word) (s : State) : Result := .next s

/-- CSR.WR.NOP, sel[1:0] = 10 (R126): nothing. -/
def execCsrWrNop2 (_x : BitVec 5) (_sz : AccSize) (_v : Word) (s : State) : Result := .next s

end Sys2Proof.Machine
end

