-- ==== Sys2Proof/Machine/FdcOps.lean ====
section
/-! DEFINITION. The floppy controller's shared operations: finishing a command (R242), the Type I end (R250), the
head (R246, R247), starting a transfer (R251, R256, R257), accepting a command (R235), FORCE_INTERRUPT (R259)
and the collaborator's events (R260, R261). -/

namespace Sys2Proof.Machine

/-- `Finish(s)` (R242). -/
def finish (st : Byte) (s : State) : State :=
  (s.withFdc { s.fdc with status := st, drq := false, xfer := none, multi := false, phase := .idle }).csrSet
    Config.csrFdcCause

/-! ## Type I -/

/-- The track number that the integer t is clamped to: `min(max(t, 0), FDC_TRACKS − 1)` (43_floppy.md). -/
def clampTrack (t : Int) : Nat := (min (max t 0) (Config.fdcTracks - 1)).toNat

/-- `step_dir` as an integer, +1 or −1 (R35). -/
def StepDir.toInt : StepDir → Int
  | .inward => 1
  | .outward => -1

/-- The track register one step on in a direction, mod 256 (R247). -/
def stepTrack (t : Byte) : StepDir → Byte
  | .inward => t + 1
  | .outward => t - 1

/-- `TypeIFinish()` with the command's h and V (R250). -/
def typeIFinish (h ver : Bool) (s : State) : State := finish (typeIStatus s.fdc s.inputs.fdcReady h ver) s

/-- RESTORE's head movement (R245). -/
def Fdc.restore (f : Fdc) : Fdc := { f with physTrack := 0, track := 0, stepDir := .outward }

/-- SEEK's direction: the sign of d, kept where d = 0 (R246). -/
def seekDir (d : Int) (old : StepDir) : StepDir :=
  if d > 0 then .inward else if d < 0 then .outward else old

/-- SEEK's head movement: by data − track, the target being the data register (R246). -/
def Fdc.seek (f : Fdc) : Fdc :=
  let d : Int := (f.data.toNat : Int) - (f.track.toNat : Int)
  { f with
    stepDir := seekDir d f.stepDir
    physTrack := clampTrack ((f.physTrack : Int) + d)
    track := f.data }

/-- One step in the direction of the last step; u updates the track register (R247). -/
def Fdc.step (f : Fdc) (u : Bool) : Fdc :=
  { f with
    physTrack := clampTrack ((f.physTrack : Int) + f.stepDir.toInt)
    track := if u then stepTrack f.track f.stepDir else f.track }

/-! ## Transfers -/

/-- A transfer is published: the descriptor stands, DRQ is set, the command waits (R251, R256, R257). -/
def publish (x : Xfer) (s : State) : State :=
  s.withFdc { s.fdc with xfer := some x, drq := true, phase := .waitDrq }

/-- The image offset of the current track and side (R251, R257). -/
def trackOffset (f : Fdc) : Nat :=
  (f.physTrack * Config.fdcSides + (if f.side then 1 else 0)) * Config.fdcTrackBytes

/-- The image offset of the current track, side and sector (R251). -/
def sectorOffset (f : Fdc) : Nat :=
  trackOffset f + (f.sector.toNat - Config.fdcSectorBase) * Config.fdcSectorSize

/-- The sector is found: the track register agrees with the head and the number is one of the track's (R251). -/
def Fdc.sectorFound (f : Fdc) : Bool :=
  f.onTrack &&
    decide (Config.fdcSectorBase ≤ f.sector.toNat ∧ f.sector.toNat < Config.fdcSectorBase + Config.fdcSectors)

/-- `SectorStart(dir)` (R251). -/
def sectorStart (dir : XferDir) (s : State) : State :=
  if s.inputs.fdcReady = false then finish 0x00 s
  else if dir = .toDisk ∧ s.inputs.fdcWp = true then finish fdcWpStatus s
  else if s.fdc.sectorFound = false then finish fdcRnfStatus s
  else publish { dir := dir, source := .image, offset := sectorOffset s.fdc, length := Config.fdcSectorSize } s

/-- READ_TRACK and WRITE_TRACK: the track's bytes as they stand in the image (R257, R258). R258 does not order its two
tests: a WRITE_TRACK that is both not ready and write-protected finishes with 0x00, as not ready (DESIGN CHOICE,
log 22). -/
def trackStart (dir : XferDir) (s : State) : State :=
  if s.inputs.fdcReady = false then finish 0x00 s
  else if dir = .toDisk ∧ s.inputs.fdcWp = true then finish fdcWpStatus s
  else publish { dir := dir, source := .image, offset := trackOffset s.fdc, length := Config.fdcTrackBytes } s

/-- `Draw(FDC_SECTOR_BASE .. FDC_SECTOR_BASE + FDC_SECTORS − 1)` made of a drawn word (R256, log 18). -/
def drawnSector (w : Word) : Byte := BitVec.ofNat 8 (Config.fdcSectorBase + w.toNat % Config.fdcSectors)

/-- The ID record READ_ADDRESS builds; 0x02 is the size code of 512 bytes (R256). -/
def idRecord (f : Fdc) (sec : Byte) (crc : Half) : IdField :=
  { track := BitVec.ofNat 8 f.physTrack
    side := if f.side then 1 else 0
    sector := sec
    sizeCode := 0x02
    crcHigh := crc.extractLsb' 8 8
    crcLow := crc.setWidth 8 }

/-- READ_ADDRESS with the drive ready: the sector number is drawn, then the CRC (R256, log 18). -/
def readAddress (s : State) : State :=
  let sec := drawnSector s.drawn
  let s1 := s.afterDraw
  let crc : Half := s1.drawn.setWidth 16
  let s2 := s1.afterDraw
  publish { dir := .toHost, source := .id, offset := 0, length := 6 }
    (s2.withFdc { s2.fdc with
      idField := idRecord s.fdc sec crc
      sector := BitVec.ofNat 8 s.fdc.physTrack })

/-! ## Commands and events -/

/-- The fields an accepted command of class I, II or III sets, with `n` ticks to its execution (R235). -/
def Fdc.accept (f : Fdc) (b : Byte) (n : Nat) : Fdc :=
  let c := fdcClass b
  { f with
    cmd := b
    cmdType := c
    status := fdcBusyStatus
    drq := false
    xfer := none
    side := if c = .typeII ∨ c = .typeIII then b.getLsbD 1 else f.side
    multi := decide (c = .typeII) && b.getLsbD 4
    phase := .exec n }

/-- FORCE_INTERRUPT, `ForceInterrupt(b)` (R259): accepted in every state; I3 sets the CSR cause. -/
def forceInterrupt (b : Byte) (s : State) : State :=
  let s' := s.withFdc { s.fdc with
    cmd := b, cmdType := .typeIV, phase := .idle, drq := false, xfer := none, multi := false, status := 0x00 }
  if b.getLsbD 3 then s'.csrSet Config.csrFdcCause else s'.csrClear Config.csrFdcCause

/-- A command byte written at offset 0 (R235). -/
def fdcCommandWrite (b : Byte) (s : State) : State :=
  if fdcClass b = .typeIV then forceInterrupt b s
  else if s.fdc.busy then s
  else (s.csrClear Config.csrFdcCause).withFdc (s.fdc.accept b s.params.fdcLatency)

/-- `StatusValue()` (R233): INDEX is a fresh draw in the Type I layout. -/
def statusValue (s : State) : Byte :=
  if s.fdc.cmdType.layoutI then
    fdcStatusI s.fdc s.inputs.fdcReady s.inputs.fdcWp (s.drawn.getLsbD 0)
  else fdcStatusII s.fdc s.inputs.fdcReady

/-- The state once `StatusValue()` is read: the draw is used up in the Type I layout only (R233). -/
def afterStatusValue (s : State) : State := if s.fdc.cmdType.layoutI then s.afterDraw else s

/-- `FdcDrqAck()` (R260). -/
def fdcDrqAck (s : State) : State :=
  if s.fdc.phase = .waitDrq then
    if s.fdc.cmdType = .typeII ∧ s.fdc.multi = true then
      sectorStart (if s.fdc.cmd.getLsbD 5 then .toDisk else .toHost)
        (s.withFdc { s.fdc with drq := false, xfer := none, sector := s.fdc.sector + 1 })
    else finish 0x00 (s.withFdc { s.fdc with drq := false, xfer := none })
  else s

/-- `FdcDataLate()` (R261). -/
def fdcDataLate (s : State) : State :=
  if s.fdc.phase = .waitDrq then finish fdcLostDataStatus s else s

end Sys2Proof.Machine
end

