-- ==== Sys2Proof/Machine/FdcCmdFamily.lean ====
section
/-! DEFINITION. The meanings of the floppy commands (R245 to R259). The meaning of a class I to III command is
its execution, `Execute()` at the FDC_LATENCY-th tick (R244); a bus master's write of the byte is FDC.WR.CMD,
which accepts it (R235, log 8). -/

namespace Sys2Proof.Machine

/-- RESTORE (R245). -/
def execFdcRestore (h ver : Bool) (_r : BitVec 2) (s : State) : Result :=
  .next (typeIFinish h ver (s.withFdc s.fdc.restore))

/-- SEEK (R246). -/
def execFdcSeek (h ver : Bool) (_r : BitVec 2) (s : State) : Result :=
  .next (typeIFinish h ver (s.withFdc s.fdc.seek))

/-- STEP (R247). -/
def execFdcStep (u h ver : Bool) (_r : BitVec 2) (s : State) : Result :=
  .next (typeIFinish h ver (s.withFdc (s.fdc.step u)))

/-- STEP_IN (R248). -/
def execFdcStepIn (u h ver : Bool) (_r : BitVec 2) (s : State) : Result :=
  .next (typeIFinish h ver (s.withFdc (Fdc.step { s.fdc with stepDir := .inward } u)))

/-- STEP_OUT (R249). -/
def execFdcStepOut (u h ver : Bool) (_r : BitVec 2) (s : State) : Result :=
  .next (typeIFinish h ver (s.withFdc (Fdc.step { s.fdc with stepDir := .outward } u)))

/-- READ_SEC (R252). -/
def execFdcReadSec (_l _e _side _x : Bool) (s : State) : Result := .next (sectorStart .toHost s)

/-- READ_SEC_MULTI (R253): with multi = 1 (log 17). -/
def execFdcReadSecMulti (_l _e _side _x : Bool) (s : State) : Result :=
  .next (sectorStart .toHost (s.withFdc { s.fdc with multi := true }))

/-- WRITE_SEC (R254). -/
def execFdcWriteSec (_l _e _side _x : Bool) (s : State) : Result := .next (sectorStart .toDisk s)

/-- WRITE_SEC_MULTI (R255): with multi = 1 (log 17). -/
def execFdcWriteSecMulti (_l _e _side _x : Bool) (s : State) : Result :=
  .next (sectorStart .toDisk (s.withFdc { s.fdc with multi := true }))

/-- READ_ADDRESS (R256). -/
def execFdcReadAddress (_y _e _side _x : Bool) (s : State) : Result :=
  .next (if s.inputs.fdcReady then readAddress s else finish 0x00 s)

/-- FORCE_INTERRUPT (R259). -/
def execFdcForceInterrupt (cond : BitVec 4) (s : State) : Result := .next (forceInterrupt (0xD#4 ++ cond) s)

/-- READ_TRACK (R257). -/
def execFdcReadTrack (_y _e _side _x : Bool) (s : State) : Result := .next (trackStart .toHost s)

/-- WRITE_TRACK (R258). -/
def execFdcWriteTrack (_y _e _side _x : Bool) (s : State) : Result := .next (trackStart .toDisk s)

end Sys2Proof.Machine
end

