-- ==== Sys2Proof/Machine/FdcFamily.lean ====
section
/-! DEFINITION. The meanings of the floppy controller's register operations (R233 to R241). -/

namespace Sys2Proof.Machine

/-- FDC.RD.STATUS (R234): the composed status; CSR cause 2 is cleared. -/
def execFdcRdStatus (sz : AccSize) (s : State) : Result :=
  .next (((afterStatusValue s).csrClear Config.csrFdcCause).answerRead sz (statusValue s))

/-- FDC.RD.TRACK (R236). -/
def execFdcRdTrack (sz : AccSize) (s : State) : Result := .next (s.answerRead sz s.fdc.track)

/-- FDC.RD.SECTOR (R238). -/
def execFdcRdSector (sz : AccSize) (s : State) : Result := .next (s.answerRead sz s.fdc.sector)

/-- FDC.RD.DATA (R240). -/
def execFdcRdData (sz : AccSize) (s : State) : Result := .next (s.answerRead sz s.fdc.data)

/-- FDC.WR.CMD (R235). -/
def execFdcWrCmd (sz : AccSize) (v : Word) (s : State) : Result := .next (fdcCommandWrite (writtenByte sz v) s)

/-- FDC.WR.TRACK (R237): accepted while BUSY. -/
def execFdcWrTrack (sz : AccSize) (v : Word) (s : State) : Result :=
  .next (s.withFdc { s.fdc with track := writtenByte sz v })

/-- FDC.WR.SECTOR (R239): accepted while BUSY. -/
def execFdcWrSector (sz : AccSize) (v : Word) (s : State) : Result :=
  .next (s.withFdc { s.fdc with sector := writtenByte sz v })

/-- FDC.WR.DATA (R241). -/
def execFdcWrData (sz : AccSize) (v : Word) (s : State) : Result :=
  .next (s.withFdc { s.fdc with data := writtenByte sz v })

end Sys2Proof.Machine
end

