-- ==== Sys2Proof/Machine/NvFamily.lean ====
section
/-! DEFINITION. The meanings of the NVRAM accesses (R290 to R295) and the host's load and save (R297, R298). -/

namespace Sys2Proof.Machine

/-- NV.RD (R294). -/
def execNvRd (off : Nat) (sz : AccSize) (s : State) : Result :=
  match nvCheck s off (byteCount sz) with
  | some f => .fault f
  | none => .next (s.answerRead sz (nvRead s.nv.bytes off (byteCount sz)))

/-- NV.WR (R295). -/
def execNvWr (off : Nat) (sz : AccSize) (v : Word) (s : State) : Result :=
  match nvCheck s off (byteCount sz) with
  | some f => .fault f
  | none => .next (s.withBytes (nvWrite s.nv.bytes off (byteCount sz) v))

/-- `NvLoad(image)` (R297). -/
def nvLoad (image : List Byte) (s : State) : Result :=
  if s.nv.allocated = false then .fault .nvUnallocated
  else if image.length ≠ s.params.nvramSize then .fault .nvImageSize
  else .next (s.withBytes (Memory.ofImage 0 image))

/-- `NvSave() -> image` (R298). -/
def nvSave (s : State) : Result :=
  if s.nv.allocated = false then .fault .nvUnallocated
  else .next (s.answer (.image (Memory.toImage s.nv.bytes s.params.nvramSize)))

end Sys2Proof.Machine
end

