-- ==== Sys2Proof/Machine/TmrFamily.lean ====
section
/-! DEFINITION. The meanings of the timer operations (R140 to R144) and the timer's tick (R145). -/

namespace Sys2Proof.Machine

/-- Loads a channel: divider and counter become the 16 bits (R143). -/
def TmrChannel.load (d : Half) : TmrChannel := { divider := d, counter := d }

/-- One tick of a channel (R145): at a count of 1 or 0 the divider is reloaded. -/
def TmrChannel.tick (c : TmrChannel) : TmrChannel :=
  if c.counter.toNat ≤ 1 then { c with counter := c.divider } else { c with counter := c.counter - 1 }

/-- One tick of the timer, each channel by itself (R145). -/
def Tmr.tick (t : Tmr) : Tmr := { c0 := t.c0.tick, c1 := t.c1.tick, c2 := t.c2.tick }

/-- What a channel read returns: the low byte of its counter (R141). -/
def TmrChannel.lowByte (c : TmrChannel) : Byte := c.counter.setWidth 8

/-- TMR.RD.C0 (R141). -/
def execTmrRdC0 (sz : AccSize) (s : State) : Result := .next (s.answerRead sz s.tmr.c0.lowByte)

/-- TMR.RD.C1 (R141). -/
def execTmrRdC1 (sz : AccSize) (s : State) : Result := .next (s.answerRead sz s.tmr.c1.lowByte)

/-- TMR.RD.C2 (R141). -/
def execTmrRdC2 (sz : AccSize) (s : State) : Result := .next (s.answerRead sz s.tmr.c2.lowByte)

/-- TMR.RD.CTL (R142): reserved, returns 0. -/
def execTmrRdCtl (sz : AccSize) (s : State) : Result := .next (s.answerRead sz (0 : Byte))

/-- TMR.WR.C0 (R143). -/
def execTmrWrC0 (sz : AccSize) (v : Word) (s : State) : Result :=
  .next (s.withTmr { s.tmr with c0 := .load (writtenHalf sz v) })

/-- TMR.WR.C1 (R143). -/
def execTmrWrC1 (sz : AccSize) (v : Word) (s : State) : Result :=
  .next (s.withTmr { s.tmr with c1 := .load (writtenHalf sz v) })

/-- TMR.WR.C2 (R143). -/
def execTmrWrC2 (sz : AccSize) (v : Word) (s : State) : Result :=
  .next (s.withTmr { s.tmr with c2 := .load (writtenHalf sz v) })

/-- TMR.WR.CTL (R144): reserved, no effect. -/
def execTmrWrCtl (_sz : AccSize) (_v : Word) (s : State) : Result := .next s

end Sys2Proof.Machine
end

