-- ==== Sys2Proof/Machine/UartOps.lean ====
section
/-! DEFINITION. The UART's internal procedures (R162 to R169), its misc commands (R170 to R177) and the parts
of its tick (R210, R211). -/

namespace Sys2Proof.Machine

/-- `UpdateTx()` (R162). -/
def updateTx (s : State) : State := (s.withUart s.uart.txStatus).recompute

/-- `p.mode[p.mode_ptr]` (R163). -/
def UartPort.modeReg (q : UartPort) : Byte := if q.modePtr = 0 then q.mode0 else q.mode1

/-- `p.mode_ptr <- 1 - p.mode_ptr` (R163). -/
def UartPort.cycleMode (q : UartPort) : UartPort := { q with modePtr := 1 - q.modePtr }

/-- `p.mode[p.mode_ptr] <- b` (R163). -/
def UartPort.storeMode (q : UartPort) (b : Byte) : UartPort :=
  if q.modePtr = 0 then { q with mode0 := b } else { q with mode1 := b }

/-- `ModeRead(p)` (R163). -/
def modeRead (p : Port) (sz : AccSize) (s : State) : State :=
  (s.withUart (s.uart.setPort p (s.uart.port p).cycleMode)).answerRead sz (s.uart.port p).modeReg

/-- `ModeWrite(p, b)` (R163). -/
def modeWrite (p : Port) (b : Byte) (s : State) : State :=
  s.withUart (s.uart.setPort p ((s.uart.port p).storeMode b).cycleMode)

/-- The receive-ready state of port p is cleared and the interrupt recomputed (R164, R165). -/
def clearRx (p : Port) (s : State) : State := (s.withUart (s.uart.setRx p false)).recompute

/-- `StatusRead(p)`: the status before the clear (R164). -/
def statusRead (p : Port) (sz : AccSize) (s : State) : State :=
  (clearRx p s).answerRead sz (s.uart.port p).status

/-- The receive composite, `status ++ rxbuf` (R165, R77). -/
def UartPort.composite (q : UartPort) : Half := q.status ++ q.rxbuf

/-- `RxRead(p)`: the composite before the clear (R165). -/
def rxRead (p : Port) (sz : AccSize) (s : State) : State :=
  (clearRx p s).answerRead sz (s.uart.port p).composite

/-- The command byte is kept and the enable bits act: ETX before DTX, ERX before DRX (R166). -/
def UartPort.enables (q : UartPort) (b : Byte) : UartPort :=
  { q with
    cmd := b
    txEn := if b.getLsbD 2 then true else if b.getLsbD 3 then false else q.txEn
    rxEn := if b.getLsbD 0 then true else if b.getLsbD 1 then false else q.rxEn }

/-- MISC 1: reset the mode pointer (R171). -/
def miscResetModePtr (p : Port) (u : Uart) : Uart := u.setPort p { u.port p with modePtr := 0 }

/-- MISC 2: disable the receiver and clear RXR and the receive istat bit (R172). -/
def miscDisableRx (p : Port) (u : Uart) : Uart := (u.setPort p { u.port p with rxEn := false }).setRx p false

/-- MISC 3: clear TXR (R173). -/
def miscClearTxr (p : Port) (u : Uart) : Uart :=
  u.setPort p { u.port p with status := setBit (u.port p).status txrBit false }

/-- MISC 4: clear the error bits, status[6:4] (R174). -/
def miscClearErrors (p : Port) (u : Uart) : Uart :=
  u.setPort p { u.port p with status := setBit (setBit (setBit (u.port p).status 4 false) 5 false) 6 false }

/-- MISC 0 and 5 to 7: no effect (R170, R175 to R177). -/
def miscNone (_p : Port) (u : Uart) : Uart := u

/-- `Misc(p, m)` (R166, R170 to R177). -/
def misc (p : Port) (m : BitVec 3) (u : Uart) : Uart :=
  match m.toNat with
  | 0 => miscNone p u
  | 1 => miscResetModePtr p u
  | 2 => miscDisableRx p u
  | 3 => miscClearTxr p u
  | 4 => miscClearErrors p u
  | _ => miscNone p u

/-- A command byte whose misc command is `effect`: enables, then misc, then the transmit update (R166, D15). -/
def commandWith (p : Port) (b : Byte) (effect : Port → Uart → Uart) (s : State) : State :=
  updateTx (s.withUart (effect p (s.uart.setPort p ((s.uart.port p).enables b))))

/-- `CommandWrite(p, b)` (R166). -/
def commandWrite (p : Port) (b : Byte) (s : State) : State :=
  commandWith p b (fun q => misc q (b.extractLsb' 4 3)) s

/-- `TxWrite(p, b)` (R167). -/
def txWrite (p : Port) (b : Byte) (s : State) : State :=
  let s' := s.withUart (s.uart.setPort p { s.uart.port p with txbuf := b })
  updateTx (if (s.uart.port p).txEn then s'.emit (.tx p b) else s')

/-- `v[15:8] <- b` (R168). -/
def setHighByte (v : Half) (b : Byte) : Half := b ++ v.setWidth 8

/-- `v[7:0] <- b` (R168). -/
def setLowByte (v : Half) (b : Byte) : Half := v.extractLsb' 8 8 ++ b

/-- `PresetWrite(HIGH, b)` (R168). -/
def presetHigh (b : Byte) (s : State) : State :=
  s.withUart { s.uart with
    counterSet := setHighByte s.uart.counterSet b
    counterValue := setHighByte s.uart.counterValue b }

/-- `PresetWrite(LOW, b)` (R168). -/
def presetLow (b : Byte) (s : State) : State :=
  s.withUart { s.uart with
    counterSet := setLowByte s.uart.counterSet b
    counterValue := setLowByte s.uart.counterValue b }

/-- What a delivered byte does to port p (R169). -/
def Uart.deliverTo (u : Uart) (c : Byte) (p : Port) : Uart :=
  if (u.port p).rxEn then
    if (u.port p).status.getLsbD rxrBit then u
    else (u.setPort p { u.port p with rxbuf := c }).setRx p true
  else u.setRx p false

/-- `RxDeliver(byte)`: both ports, then the recompute (R169). -/
def rxDeliver (c : Byte) (s : State) : State :=
  (s.withUart ((s.uart.deliverTo c .a).deliverTo c .b)).recompute

/-- `CounterTick()`: the one-shot counter (R210). -/
def counterTick (s : State) : State :=
  if s.uart.counterEnabled then
    if s.uart.counterValue.toNat ≤ s.params.uartCtrStep then
      (s.withUart { s.uart with
        istat := setBit s.uart.istat criBit true
        counterValue := s.uart.counterSet
        counterEnabled := false }).recompute
    else
      s.withUart { s.uart with counterValue := s.uart.counterValue - BitVec.ofNat 16 s.params.uartCtrStep }
  else s

/-- `Poll()`: the character source answers once; the answer is used up, and is lost where port A's receiver is
disabled (R211). -/
def poll (s : State) : State :=
  let s' := { s with inputs := { s.inputs with kbd := none } }
  match s.inputs.kbd with
  | some c => if s.uart.a.rxEn then rxDeliver c s' else s'
  | none => s'

/-- `Service(uart)` (R212): the counter first, then the poll. -/
def serviceUart (s : State) : State := poll (counterTick s)

end Sys2Proof.Machine
end

