-- ==== Sys2Proof/Machine/UartCmdFamily.lean ====
section
/-! DEFINITION. The meanings of the UART command bytes, one a misc command (R166, R170 to R177). The byte is the
one written at the port's command offset; its bit 7 is kept in `cmd` and does nothing (R96). -/

namespace Sys2Proof.Machine

/-- UART.CMD.MISC0.NONE (R170, with the enable bits of R166). -/
def execUartCmdMisc0 (p : Port) (x dtx etx drx erx : Bool) (s : State) : Result :=
  .next (commandWith p (uartCommandByte x 0 dtx etx drx erx) miscNone s)

/-- UART.CMD.MISC1.RESET_MRPTR (R171, with the enable bits of R166). -/
def execUartCmdMisc1 (p : Port) (x dtx etx drx erx : Bool) (s : State) : Result :=
  .next (commandWith p (uartCommandByte x 1 dtx etx drx erx) miscResetModePtr s)

/-- UART.CMD.MISC2.DIS_RX_CLR_RXR (R172, with the enable bits of R166). -/
def execUartCmdMisc2 (p : Port) (x dtx etx drx erx : Bool) (s : State) : Result :=
  .next (commandWith p (uartCommandByte x 2 dtx etx drx erx) miscDisableRx s)

/-- UART.CMD.MISC3.CLR_TXR (R173, with the enable bits of R166). -/
def execUartCmdMisc3 (p : Port) (x dtx etx drx erx : Bool) (s : State) : Result :=
  .next (commandWith p (uartCommandByte x 3 dtx etx drx erx) miscClearTxr s)

/-- UART.CMD.MISC4.CLR_ERR (R174, with the enable bits of R166). -/
def execUartCmdMisc4 (p : Port) (x dtx etx drx erx : Bool) (s : State) : Result :=
  .next (commandWith p (uartCommandByte x 4 dtx etx drx erx) miscClearErrors s)

/-- UART.CMD.MISC5.NONE5 (R175, with the enable bits of R166). -/
def execUartCmdMisc5 (p : Port) (x dtx etx drx erx : Bool) (s : State) : Result :=
  .next (commandWith p (uartCommandByte x 5 dtx etx drx erx) miscNone s)

/-- UART.CMD.MISC6.NONE6 (R176, with the enable bits of R166). -/
def execUartCmdMisc6 (p : Port) (x dtx etx drx erx : Bool) (s : State) : Result :=
  .next (commandWith p (uartCommandByte x 6 dtx etx drx erx) miscNone s)

/-- UART.CMD.MISC7.NONE7 (R177, with the enable bits of R166). -/
def execUartCmdMisc7 (p : Port) (x dtx etx drx erx : Bool) (s : State) : Result :=
  .next (commandWith p (uartCommandByte x 7 dtx etx drx erx) miscNone s)

end Sys2Proof.Machine
end

