-- ==== Sys2Proof/Machine/UartFamily.lean ====
section
/-! DEFINITION. The meanings of the UART's register operations, one an offset (R178 to R209). -/

namespace Sys2Proof.Machine

/-! ## Reads -/

/-- UART.RD.MRA (R178). -/
def execUartRdMra (sz : AccSize) (s : State) : Result := .next (modeRead .a sz s)

/-- UART.RD.SRA (R179). -/
def execUartRdSra (sz : AccSize) (s : State) : Result := .next (statusRead .a sz s)

/-- UART.RD.RSV2 (R180): returns 0. -/
def execUartRdRsv2 (sz : AccSize) (s : State) : Result := .next (s.answerRead sz (0 : Byte))

/-- UART.RD.RHRA (R181). -/
def execUartRdRhra (sz : AccSize) (s : State) : Result := .next (rxRead .a sz s)

/-- UART.RD.IPCR (R182): returns 0. -/
def execUartRdIpcr (sz : AccSize) (s : State) : Result := .next (s.answerRead sz (0 : Byte))

/-- UART.RD.ISR (R183): unmasked. -/
def execUartRdIsr (sz : AccSize) (s : State) : Result := .next (s.answerRead sz s.uart.istat)

/-- UART.RD.CTU (R184): returns 0. -/
def execUartRdCtu (sz : AccSize) (s : State) : Result := .next (s.answerRead sz (0 : Byte))

/-- UART.RD.CTL (R185): returns 0. -/
def execUartRdCtl (sz : AccSize) (s : State) : Result := .next (s.answerRead sz (0 : Byte))

/-- UART.RD.MRB (R186). -/
def execUartRdMrb (sz : AccSize) (s : State) : Result := .next (modeRead .b sz s)

/-- UART.RD.SRB (R187). -/
def execUartRdSrb (sz : AccSize) (s : State) : Result := .next (statusRead .b sz s)

/-- UART.RD.RSV10 (R188): returns 0. -/
def execUartRdRsv10 (sz : AccSize) (s : State) : Result := .next (s.answerRead sz (0 : Byte))

/-- UART.RD.RHRB (R189). -/
def execUartRdRhrb (sz : AccSize) (s : State) : Result := .next (rxRead .b sz s)

/-- UART.RD.RSV12 (R190): returns 0. -/
def execUartRdRsv12 (sz : AccSize) (s : State) : Result := .next (s.answerRead sz (0 : Byte))

/-- UART.RD.RSV13 (R191): returns 0. -/
def execUartRdRsv13 (sz : AccSize) (s : State) : Result := .next (s.answerRead sz (0 : Byte))

/-- UART.RD.START (R192): the counter is enabled and not reloaded. -/
def execUartRdStart (sz : AccSize) (s : State) : Result := .next ((s.withUart { s.uart with counterEnabled := true }).answerRead sz (0 : Byte))

/-- UART.RD.STOP (R193): the counter stops, CRI is cleared, the interrupt recomputed. -/
def execUartRdStop (sz : AccSize) (s : State) : Result :=
  .next ((s.withUart { s.uart with
    counterEnabled := false
    istat := setBit s.uart.istat criBit false }).recompute.answerRead sz (0 : Byte))

/-! ## Writes -/

/-- UART.WR.MRA (R194). -/
def execUartWrMra (sz : AccSize) (v : Word) (s : State) : Result :=
  .next (modeWrite .a (writtenByte sz v) s)

/-- UART.WR.CSRA (R195): no effect. -/
def execUartWrCsra (_sz : AccSize) (_v : Word) (s : State) : Result := .next s

/-- UART.WR.CRA (R196). -/
def execUartWrCra (sz : AccSize) (v : Word) (s : State) : Result :=
  .next (commandWrite .a (writtenByte sz v) s)

/-- UART.WR.THRA (R197). -/
def execUartWrThra (sz : AccSize) (v : Word) (s : State) : Result :=
  .next (txWrite .a (writtenByte sz v) s)

/-- UART.WR.ACR (R198). -/
def execUartWrAcr (sz : AccSize) (v : Word) (s : State) : Result :=
  .next (s.withUart { s.uart with acr := writtenByte sz v })

/-- UART.WR.IMR (R199). -/
def execUartWrImr (sz : AccSize) (v : Word) (s : State) : Result :=
  .next ((s.withUart { s.uart with imask := writtenByte sz v }).recompute)

/-- UART.WR.CTUR (R200). -/
def execUartWrCtur (sz : AccSize) (v : Word) (s : State) : Result :=
  .next (presetHigh (writtenByte sz v) s)

/-- UART.WR.CTLR (R201). -/
def execUartWrCtlr (sz : AccSize) (v : Word) (s : State) : Result :=
  .next (presetLow (writtenByte sz v) s)

/-- UART.WR.MRB (R202). -/
def execUartWrMrb (sz : AccSize) (v : Word) (s : State) : Result :=
  .next (modeWrite .b (writtenByte sz v) s)

/-- UART.WR.CSRB (R203): no effect. -/
def execUartWrCsrb (_sz : AccSize) (_v : Word) (s : State) : Result := .next s

/-- UART.WR.CRB (R204). -/
def execUartWrCrb (sz : AccSize) (v : Word) (s : State) : Result :=
  .next (commandWrite .b (writtenByte sz v) s)

/-- UART.WR.THRB (R205). -/
def execUartWrThrb (sz : AccSize) (v : Word) (s : State) : Result :=
  .next (txWrite .b (writtenByte sz v) s)

/-- UART.WR.RSV12 (R206): no effect. -/
def execUartWrRsv12 (_sz : AccSize) (_v : Word) (s : State) : Result := .next s

/-- UART.WR.RSV13 (R207): no effect. -/
def execUartWrRsv13 (_sz : AccSize) (_v : Word) (s : State) : Result := .next s

/-- UART.WR.SOPR (R208): no effect. -/
def execUartWrSopr (_sz : AccSize) (_v : Word) (s : State) : Result := .next s

/-- UART.WR.ROPR (R209): no effect. -/
def execUartWrRopr (_sz : AccSize) (_v : Word) (s : State) : Result := .next s

end Sys2Proof.Machine
end

