-- ==== Sys2Proof/Machine/Dispatch.lean ====
section
/-! DEFINITION. One arm a row of spec/opcode_table.json. -/

namespace Sys2Proof.Machine

def exec (i : Instr) (s : State) : Host.Outcome State Fault Refusal :=
  match i with
  | .uartRdMra sz => Sys2Proof.Machine.execUartRdMra sz s
  | .uartRdSra sz => Sys2Proof.Machine.execUartRdSra sz s
  | .uartRdRsv2 sz => Sys2Proof.Machine.execUartRdRsv2 sz s
  | .uartRdRhra sz => Sys2Proof.Machine.execUartRdRhra sz s
  | .uartRdIpcr sz => Sys2Proof.Machine.execUartRdIpcr sz s
  | .uartRdIsr sz => Sys2Proof.Machine.execUartRdIsr sz s
  | .uartRdCtu sz => Sys2Proof.Machine.execUartRdCtu sz s
  | .uartRdCtl sz => Sys2Proof.Machine.execUartRdCtl sz s
  | .uartRdMrb sz => Sys2Proof.Machine.execUartRdMrb sz s
  | .uartRdSrb sz => Sys2Proof.Machine.execUartRdSrb sz s
  | .uartRdRsv10 sz => Sys2Proof.Machine.execUartRdRsv10 sz s
  | .uartRdRhrb sz => Sys2Proof.Machine.execUartRdRhrb sz s
  | .uartRdRsv12 sz => Sys2Proof.Machine.execUartRdRsv12 sz s
  | .uartRdRsv13 sz => Sys2Proof.Machine.execUartRdRsv13 sz s
  | .uartRdStart sz => Sys2Proof.Machine.execUartRdStart sz s
  | .uartRdStop sz => Sys2Proof.Machine.execUartRdStop sz s
  | .uartWrMra sz v => Sys2Proof.Machine.execUartWrMra sz v s
  | .uartWrCsra sz v => Sys2Proof.Machine.execUartWrCsra sz v s
  | .uartWrCra sz v => Sys2Proof.Machine.execUartWrCra sz v s
  | .uartWrThra sz v => Sys2Proof.Machine.execUartWrThra sz v s
  | .uartWrAcr sz v => Sys2Proof.Machine.execUartWrAcr sz v s
  | .uartWrImr sz v => Sys2Proof.Machine.execUartWrImr sz v s
  | .uartWrCtur sz v => Sys2Proof.Machine.execUartWrCtur sz v s
  | .uartWrCtlr sz v => Sys2Proof.Machine.execUartWrCtlr sz v s
  | .uartWrMrb sz v => Sys2Proof.Machine.execUartWrMrb sz v s
  | .uartWrCsrb sz v => Sys2Proof.Machine.execUartWrCsrb sz v s
  | .uartWrCrb sz v => Sys2Proof.Machine.execUartWrCrb sz v s
  | .uartWrThrb sz v => Sys2Proof.Machine.execUartWrThrb sz v s
  | .uartWrRsv12 sz v => Sys2Proof.Machine.execUartWrRsv12 sz v s
  | .uartWrRsv13 sz v => Sys2Proof.Machine.execUartWrRsv13 sz v s
  | .uartWrSopr sz v => Sys2Proof.Machine.execUartWrSopr sz v s
  | .uartWrRopr sz v => Sys2Proof.Machine.execUartWrRopr sz v s
  | .uartCmdMisc0 p x dtx etx drx erx => Sys2Proof.Machine.execUartCmdMisc0 p x dtx etx drx erx s
  | .uartCmdMisc1 p x dtx etx drx erx => Sys2Proof.Machine.execUartCmdMisc1 p x dtx etx drx erx s
  | .uartCmdMisc2 p x dtx etx drx erx => Sys2Proof.Machine.execUartCmdMisc2 p x dtx etx drx erx s
  | .uartCmdMisc3 p x dtx etx drx erx => Sys2Proof.Machine.execUartCmdMisc3 p x dtx etx drx erx s
  | .uartCmdMisc4 p x dtx etx drx erx => Sys2Proof.Machine.execUartCmdMisc4 p x dtx etx drx erx s
  | .uartCmdMisc5 p x dtx etx drx erx => Sys2Proof.Machine.execUartCmdMisc5 p x dtx etx drx erx s
  | .uartCmdMisc6 p x dtx etx drx erx => Sys2Proof.Machine.execUartCmdMisc6 p x dtx etx drx erx s
  | .uartCmdMisc7 p x dtx etx drx erx => Sys2Proof.Machine.execUartCmdMisc7 p x dtx etx drx erx s
  | .tmrRdC0 sz => Sys2Proof.Machine.execTmrRdC0 sz s
  | .tmrRdC1 sz => Sys2Proof.Machine.execTmrRdC1 sz s
  | .tmrRdC2 sz => Sys2Proof.Machine.execTmrRdC2 sz s
  | .tmrRdCtl sz => Sys2Proof.Machine.execTmrRdCtl sz s
  | .tmrWrC0 sz v => Sys2Proof.Machine.execTmrWrC0 sz v s
  | .tmrWrC1 sz v => Sys2Proof.Machine.execTmrWrC1 sz v s
  | .tmrWrC2 sz v => Sys2Proof.Machine.execTmrWrC2 sz v s
  | .tmrWrCtl sz v => Sys2Proof.Machine.execTmrWrCtl sz v s
  | .csrRd w k sz => Sys2Proof.Machine.execCsrRd w k sz s
  | .csrRdNop0 x sz => Sys2Proof.Machine.execCsrRdNop0 x sz s
  | .csrRdNop1 x sz => Sys2Proof.Machine.execCsrRdNop1 x sz s
  | .csrRdNop2 x sz => Sys2Proof.Machine.execCsrRdNop2 x sz s
  | .csrClr k sz v => Sys2Proof.Machine.execCsrClr k sz v s
  | .csrSet k sz v => Sys2Proof.Machine.execCsrSet k sz v s
  | .csrWrNop0 x sz v => Sys2Proof.Machine.execCsrWrNop0 x sz v s
  | .csrWrNop1 x sz v => Sys2Proof.Machine.execCsrWrNop1 x sz v s
  | .csrWrNop2 x sz v => Sys2Proof.Machine.execCsrWrNop2 x sz v s
  | .fdcRdStatus sz => Sys2Proof.Machine.execFdcRdStatus sz s
  | .fdcRdTrack sz => Sys2Proof.Machine.execFdcRdTrack sz s
  | .fdcRdSector sz => Sys2Proof.Machine.execFdcRdSector sz s
  | .fdcRdData sz => Sys2Proof.Machine.execFdcRdData sz s
  | .fdcWrCmd sz v => Sys2Proof.Machine.execFdcWrCmd sz v s
  | .fdcWrTrack sz v => Sys2Proof.Machine.execFdcWrTrack sz v s
  | .fdcWrSector sz v => Sys2Proof.Machine.execFdcWrSector sz v s
  | .fdcWrData sz v => Sys2Proof.Machine.execFdcWrData sz v s
  | .fdcRestore h ver r => Sys2Proof.Machine.execFdcRestore h ver r s
  | .fdcSeek h ver r => Sys2Proof.Machine.execFdcSeek h ver r s
  | .fdcStep u h ver r => Sys2Proof.Machine.execFdcStep u h ver r s
  | .fdcStepIn u h ver r => Sys2Proof.Machine.execFdcStepIn u h ver r s
  | .fdcStepOut u h ver r => Sys2Proof.Machine.execFdcStepOut u h ver r s
  | .fdcReadSec l e side x => Sys2Proof.Machine.execFdcReadSec l e side x s
  | .fdcReadSecMulti l e side x => Sys2Proof.Machine.execFdcReadSecMulti l e side x s
  | .fdcWriteSec l e side x => Sys2Proof.Machine.execFdcWriteSec l e side x s
  | .fdcWriteSecMulti l e side x => Sys2Proof.Machine.execFdcWriteSecMulti l e side x s
  | .fdcReadAddress y e side x => Sys2Proof.Machine.execFdcReadAddress y e side x s
  | .fdcForceInterrupt cond => Sys2Proof.Machine.execFdcForceInterrupt cond s
  | .fdcReadTrack y e side x => Sys2Proof.Machine.execFdcReadTrack y e side x s
  | .fdcWriteTrack y e side x => Sys2Proof.Machine.execFdcWriteTrack y e side x s
  | .nvRd off sz => Sys2Proof.Machine.execNvRd off sz s
  | .nvWr off sz v => Sys2Proof.Machine.execNvWr off sz v s

end Sys2Proof.Machine
end

