-- ==== Sys2Proof/Machine/Platform.lean ====
section
/-! DEFINITION. The operations the platform issues (R101): accesses as they arrive, service ticks, resets, the
collaborator's events, the host's load, save and inputs. -/

namespace Sys2Proof.Machine

/-- The access as the bus master issues it: a floppy command byte is a write at FDC offset 0 (R97, log 8). -/
def issuedAccess : Access → Access
  | .fdcCmd b => .bus .fdc 0x80 .w8 (b.setWidth 32)
  | a => a

/-- An access that names no operation: 0 on a read, nothing on a write (R83, R310, log 9). -/
def unmapped (a : Access) (s : State) : State :=
  match a with
  | .bus _ sel sz _ => if sel.getLsbD 7 then s else s.answerRead sz (0 : Byte)
  | .nv _ _ _ _ => s
  | .uartCmd _ _ => s
  | .fdcCmd _ => s

/-- Runs an access: decode, then `exec`. -/
def runAccess (a : Access) (s : State) : Result :=
  match decode (issuedAccess a) with
  | .instr i => exec i s
  | .rejected _ => .next (unmapped a s)

/-- Runs an access at a physical address: outside every window it never reaches the block (R70, log 14). -/
def runPhys (dir : AccessDir) (pa : Nat) (sz : AccSize) (v : Word) (s : State) : Result :=
  match routedAccess s.params dir pa sz v with
  | some a => runAccess a s
  | none => .next s

/-- `Service(tmr)` (R145). -/
def serviceTmr (s : State) : State := s.withTmr s.tmr.tick

/-- `Execute()`: runs the command in `fdc.cmd`, decoded by R232, on the registers and inputs of this tick (R244). -/
def executeFdc (s : State) : Result := exec (decodeFdcCommand s.fdc.cmd) s

/-- `Service(fdc)` (R243). -/
def serviceFdc (s : State) : Result :=
  match s.fdc.phase with
  | .exec n => if 1 < n then .next (s.withFdc { s.fdc with phase := .exec (n - 1) }) else executeFdc s
  | .idle => .next s
  | .waitDrq => .next s

/-- `Service(dev)` (R127, R145, R212, R243, R296). -/
def runService (d : Device) (s : State) : Result :=
  match d with
  | .csr => .next s
  | .tmr => .next (serviceTmr s)
  | .uart => .next (serviceUart s)
  | .fdc => serviceFdc s
  | .nv => .next s

/-- `Reset(nv)` (R344): the first reset allocates and fills, or raises NV_ALLOC (R299); a later one keeps all. -/
def resetNv (s : State) : Result :=
  if s.nv.allocated then .next s
  else if s.inputs.storeAvailable then .next { s with nv := .reset }
  else .fault .nvAlloc

/-- `Reset(dev)` (R340 to R344): its own device's state and nothing else (R345). -/
def runReset (d : Device) (s : State) : Result :=
  match d with
  | .csr => .next { s with csr := { bits := 0 } }
  | .tmr => .next { s with tmr := .reset }
  | .uart => .next { s with uart := .reset }
  | .fdc => .next { s with fdc := .reset }
  | .nv => resetNv s

/-- Runs one operation. -/
def runOp (op : Op) (s : State) : Result :=
  match op with
  | .access a => runAccess a s
  | .phys dir pa sz v => runPhys dir pa sz v s
  | .service d => runService d s
  | .reset d => runReset d s
  | .fdcDrqAck => .next (fdcDrqAck s)
  | .fdcDataLate => .next (fdcDataLate s)
  | .nvLoad image => nvLoad image s
  | .nvSave => nvSave s
  | .kbd answer => .next { s with inputs := { s.inputs with kbd := answer } }
  | .input ready wp => .next { s with inputs := { s.inputs with fdcReady := ready, fdcWp := wp } }

/-- `reset all`: the five resets, in the order of R347. -/
def systemReset : List Op := [.reset .csr, .reset .tmr, .reset .uart, .reset .fdc, .reset .nv]

/-- `tick all`: the five services, in the order of R318. -/
def tickAll : List Op := [.service .csr, .service .tmr, .service .uart, .service .fdc, .service .nv]

end Sys2Proof.Machine
end

