-- ==== Sys2Proof/Machine/Step.lean ====
section
/-! DEFINITION. One step: the oldest operation the agents have issued, as one indivisible step (R81, R84). -/

namespace Sys2Proof.Machine

/-- The state an operation starts from: it has left the queue, and nothing has been returned yet. -/
def State.start (s : State) (rest : List Op) : State := { s with pending := rest, returned := none }

/-- One step. With no operation issued the state persists (R325). -/
def step (s : State) : Host.Outcome State Fault Refusal :=
  match s.pending with
  | [] => .next s
  | op :: rest => runOp op (s.start rest)

/-- The state whose next step runs the operation of a table word (log 21). A floppy command of class I to III
runs from `fdc.cmd` at its execution tick (R244), so it is put there as accepted, with one tick to go; every
other operation is issued as an access. -/
def State.withFetchWord (s : State) (nbits w : Nat) : State :=
  match tableAccess nbits w with
  | .fdcCmd b =>
    if fdcClass b = .typeIV then { s with pending := .access (.fdcCmd b) :: s.pending }
    else { s with fdc := s.fdc.accept b 1, pending := .service .fdc :: s.pending }
  | a => { s with pending := .access a :: s.pending }

end Sys2Proof.Machine
end

