-- ==== Sys2Proof/Safety.lean ====
section
/-! DEFINITION. What a safe run is: the faults' codes and which are fatal (R311), the step of a host that goes
on after a fault that is not fatal, and the invariants the spec states between operations. -/

namespace Sys2Proof.Machine

/-- The code of a fault (R311). -/
def Fault.code : Fault → Nat
  | .nvAlloc => 1
  | .nvUnallocated => 2
  | .nvRange => 3
  | .nvImageSize => 4

/-- NV_ALLOC alone is fatal (R299, R311). -/
def Fault.fatal : Fault → Bool
  | .nvAlloc => true
  | .nvUnallocated => false
  | .nvRange => false
  | .nvImageSize => false

/-- The state after a fault: the operation has ended with no state change and no value (R311). -/
def State.afterFault (s : State) : State := s.start s.pending.tail

/-- A step of a host that goes on after a fault that is not fatal (R311, log 11). -/
def stepOn (s : State) : Result :=
  match step s with
  | .fault f => if f.fatal then .fault f else .next s.afterFault
  | o => o

/-- Between operations TXR, TXE and the transmit istat bits equal the transmitter enables (R30). -/
def Uart.txInv (u : Uart) : Prop :=
  (∀ p, (u.port p).status.getLsbD txrBit = (u.port p).txEn ∧ (u.port p).status.getLsbD txeBit = (u.port p).txEn) ∧
    u.istat.getLsbD (txBit .a) = u.a.txEn ∧ u.istat.getLsbD (txBit .b) = u.b.txEn

/-- RAI and RBI are set only while the port holds an unread character, and then they are (R26). -/
def Uart.rxInv (u : Uart) : Prop :=
  ∀ p, u.istat.getLsbD (rxBit p) = (u.port p).status.getLsbD rxrBit

/-- The bits nothing sets: FFL, OER, PER, FER, RXB of both ports and istat bits 2, 6 and 7 (R213). -/
def Uart.unsetInv (u : Uart) : Prop :=
  (∀ p, (u.port p).status &&& 0xF2 = 0) ∧ u.istat &&& 0xC4 = 0

/-- A channel's count never exceeds its divider, and reaches 0 only where the divider is 0 (R23, R145, R147). -/
def TmrChannel.inv (c : TmrChannel) : Prop :=
  c.counter.toNat ≤ c.divider.toNat ∧ (c.counter = 0 → c.divider = 0)

/-- The invariants of the floppy controller: BUSY exactly outside IDLE, DRQ and a descriptor exactly in WAIT_DRQ,
EXEC(n) with 1 ≤ n ≤ `lat`, the head on the disk (R35); `cmd_type` the class of the byte in `cmd` (R31, R34); no
Type IV command under way (R244), and none but Type II and III waiting for DRQ (R261). -/
def Fdc.inv (f : Fdc) (lat : Nat) : Prop :=
  (f.busy = true ↔ f.phase ≠ .idle) ∧
  (f.drq = true ↔ f.phase = .waitDrq) ∧
  (f.xfer ≠ none ↔ f.phase = .waitDrq) ∧
  (∀ n, f.phase = .exec n → 1 ≤ n ∧ n ≤ lat) ∧
  f.physTrack < Config.fdcTracks ∧
  f.cmdType = fdcClass f.cmd ∧
  (f.phase ≠ .idle → f.cmdType ≠ .typeIV) ∧
  (f.phase = .waitDrq → f.cmdType = .typeII ∨ f.cmdType = .typeIII)

/-- The store's contents are in canonical form and lie in the store (R36, log 12). -/
def State.memInv (s : State) : Prop :=
  s.nv.bytes.wf ∧ ∀ c ∈ s.nv.bytes, c.1 < s.params.nvramSize

end Sys2Proof.Machine
end

