-- ==== Sys2Proof/Certificates/Slice0/Obligations.lean ====
section
/-! DEFINITION. The statements for the provers, in the order of OBLIGATIONS.json. A frame is an equation
`t = { s with x := t.x, … }`: every field not named is as it was, memory (`nv`) among them. -/

namespace Sys2Proof.Claims

open Sys2Proof.Machine

/-! ## Words of the statements -/

/-- The size of a read's value. -/
def dataSize : BusData → AccSize
  | .b8 _ => .w8
  | .b16 _ => .w16
  | .b32 _ => .w32

/-- A read's value as a number. -/
def dataNat : BusData → Nat
  | .b8 v => v.toNat
  | .b16 v => v.toNat
  | .b32 v => v.toNat

/-- The operation returned the number n at the size of the access (R9). -/
def answers (t : State) (sz : AccSize) (n : Nat) : Prop :=
  ∃ d, t.returned = some (.bus d) ∧ dataSize d = sz ∧ dataNat d = n

/-- A read at selector `sel` of a register device decodes to i (R90). -/
def readDecodes (dev : RegDevice) (sel : Nat) (sz : AccSize) (i : Instr) : Prop :=
  ∀ v, decode (.bus dev (BitVec.ofNat 8 sel) sz v) = .instr i

/-- A write of a value v of the access's size at selector `sel` of a register device decodes to `op v` (R90, R74). -/
def writeDecodes (dev : RegDevice) (sel : Nat) (sz : AccSize) (v : Word) (op : Word → Instr) : Prop :=
  v.toNat < 2 ^ sz.bits → decode (.bus dev (BitVec.ofNat 8 sel) sz v) = .instr (op v)

/-- The reads that return 0, each with its device and selector (R91 to R93). -/
def reservedReads (x : BitVec 5) (sz : AccSize) : List (RegDevice × Nat × Instr) :=
  [(.csr, 4 * x.toNat, .csrRdNop0 x sz), (.csr, 4 * x.toNat + 1, .csrRdNop1 x sz),
   (.csr, 4 * x.toNat + 2, .csrRdNop2 x sz), (.tmr, 3, .tmrRdCtl sz), (.uart, 2, .uartRdRsv2 sz),
   (.uart, 4, .uartRdIpcr sz), (.uart, 6, .uartRdCtu sz), (.uart, 7, .uartRdCtl sz), (.uart, 10, .uartRdRsv10 sz),
   (.uart, 12, .uartRdRsv12 sz), (.uart, 13, .uartRdRsv13 sz)]

/-- The writes without effect, each with its device and selector (R91 to R93). -/
def unimplementedWrites (x : BitVec 5) (sz : AccSize) : List (RegDevice × Nat × (Word → Instr)) :=
  [(.csr, 0x80 + 4 * x.toNat, .csrWrNop0 x sz), (.csr, 0x80 + 4 * x.toNat + 1, .csrWrNop1 x sz),
   (.csr, 0x80 + 4 * x.toNat + 2, .csrWrNop2 x sz), (.tmr, 0x83, .tmrWrCtl sz), (.uart, 0x81, .uartWrCsra sz),
   (.uart, 0x89, .uartWrCsrb sz), (.uart, 0x8C, .uartWrRsv12 sz), (.uart, 0x8D, .uartWrRsv13 sz),
   (.uart, 0x8E, .uartWrSopr sz), (.uart, 0x8F, .uartWrRopr sz)]

/-- The first offset of a port's registers (R91). -/
def portBase : Port → Nat
  | .a => 0
  | .b => 8

/-- w is v with bit k replaced by b. -/
def isWithBit {n : Nat} (v w : BitVec n) (k : Nat) (b : Bool) : Prop :=
  ∀ j, j < n → w.getLsbD j = if j = k then b else v.getLsbD j

/-- The UART interrupt of t follows its istat and imask as R161 says: the CSR cause 3 equals the condition, every
other cause is as in s, and the history grew by `evs` and then by one `Irq` where the condition holds. -/
def interruptFollows (evs : List OutEvent) (s t : State) : Prop :=
  isWithBit s.csr.bits t.csr.bits 3 (decide (t.uart.istat &&& t.uart.imask ≠ 0)) ∧
  t.history = s.history ++ evs ++
    (if t.uart.istat &&& t.uart.imask ≠ 0 then [.irq s.params.uartIrqVector s.params.uartIrqPriority] else [])

/-- Port p's receive-ready state is cleared between two UARTs and nothing else differs. -/
def rxCleared (p : Port) (u u' : Uart) : Prop :=
  u' = { u.setPort p { u.port p with status := (u'.port p).status } with istat := u'.istat } ∧
  isWithBit (u.port p).status (u'.port p).status 0 false ∧
  isWithBit u.istat u'.istat (match p with | .a => 1 | .b => 5) false

/-- The mode-register read of a port. -/
def modeReadOp : Port → AccSize → Instr
  | .a, sz => .uartRdMra sz
  | .b, sz => .uartRdMrb sz

/-- The mode-register write of a port. -/
def modeWriteOp : Port → AccSize → Word → Instr
  | .a, sz, v => .uartWrMra sz v
  | .b, sz, v => .uartWrMrb sz v

/-- The status read of a port. -/
def statusReadOp : Port → AccSize → Instr
  | .a, sz => .uartRdSra sz
  | .b, sz => .uartRdSrb sz

/-- The receive read of a port. -/
def rxReadOp : Port → AccSize → Instr
  | .a, sz => .uartRdRhra sz
  | .b, sz => .uartRdRhrb sz

/-- The command write of a port. -/
def commandWriteOp : Port → AccSize → Word → Instr
  | .a, sz, v => .uartWrCra sz v
  | .b, sz, v => .uartWrCrb sz v

/-- The transmit write of a port. -/
def txWriteOp : Port → AccSize → Word → Instr
  | .a, sz, v => .uartWrThra sz v
  | .b, sz, v => .uartWrThrb sz v

/-- The other port. -/
def other : Port → Port
  | .a => .b
  | .b => .a

/-- Status bits TXR and TXE equal `en`; the bits of `keep` are as in v and every other one is 0. -/
def statusIs (v w : Byte) (en : Bool) (keep : Nat → Bool) : Prop :=
  ∀ j, j < 8 → w.getLsbD j = if j = 2 ∨ j = 3 then en else (keep j && v.getLsbD j)

/-- What a UART command byte b with misc command m leaves (R162, R166, R170 to R174), in t after s: `tx` and `rx`
are the enables after the byte's enable bits. -/
def commandDone (p : Port) (b : Byte) (m : Nat) (tx rx : Bool) (s t : State) : Prop :=
  t = { s with uart := t.uart, csr := t.csr, history := t.history } ∧
  t.uart = { s.uart with a := t.uart.a, b := t.uart.b, istat := t.uart.istat } ∧
  t.uart.port p =
    { s.uart.port p with
      cmd := b
      txEn := tx
      rxEn := if m = 2 then false else rx
      modePtr := if m = 1 then 0 else (s.uart.port p).modePtr
      status := (t.uart.port p).status } ∧
  t.uart.port (other p) = { s.uart.port (other p) with status := (t.uart.port (other p)).status } ∧
  statusIs (s.uart.port p).status (t.uart.port p).status tx
    (fun j => !(m == 2 && j == 0) && !(m == 4 && (j == 4 || j == 5 || j == 6))) ∧
  statusIs (s.uart.port (other p)).status (t.uart.port (other p)).status (s.uart.port (other p)).txEn
    (fun _ => true) ∧
  (∀ j, j < 8 → t.uart.istat.getLsbD j =
    if j = 0 then t.uart.a.txEn
    else if j = 4 then t.uart.b.txEn
    else if m = 2 ∧ j = (match p with | .a => 1 | .b => 5) then false
    else s.uart.istat.getLsbD j) ∧
  interruptFollows [] s t

/-- The transmitter enable after a command's ETX and DTX bits (R166). -/
def txAfter (etx dtx old : Bool) : Bool := etx || (!dtx && old)

/-- The UART command row of a misc command. -/
def commandRow (m : Nat) (p : Port) (x dtx etx drx erx : Bool) : Instr :=
  match m with
  | 0 => .uartCmdMisc0 p x dtx etx drx erx
  | 1 => .uartCmdMisc1 p x dtx etx drx erx
  | 2 => .uartCmdMisc2 p x dtx etx drx erx
  | 3 => .uartCmdMisc3 p x dtx etx drx erx
  | 4 => .uartCmdMisc4 p x dtx etx drx erx
  | 5 => .uartCmdMisc5 p x dtx etx drx erx
  | 6 => .uartCmdMisc6 p x dtx etx drx erx
  | _ => .uartCmdMisc7 p x dtx etx drx erx

/-- The number of a UART command byte from its fields (R96). -/
def commandByteNat (x : Bool) (m : Nat) (dtx etx drx erx : Bool) : Nat :=
  128 * x.toNat + 16 * m + 8 * dtx.toNat + 4 * etx.toNat + 2 * drx.toNat + erx.toNat

/-- Timer channel i. -/
def chan (t : Tmr) (i : Fin 3) : TmrChannel :=
  match i with
  | 0 => t.c0
  | 1 => t.c1
  | 2 => t.c2

/-- The read of timer channel i. -/
def tmrReadOp (i : Fin 3) (sz : AccSize) : Instr :=
  match i with
  | 0 => .tmrRdC0 sz
  | 1 => .tmrRdC1 sz
  | 2 => .tmrRdC2 sz

/-- The load of timer channel i. -/
def tmrLoadOp (i : Fin 3) (sz : AccSize) (v : Word) : Instr :=
  match i with
  | 0 => .tmrWrC0 sz v
  | 1 => .tmrWrC1 sz v
  | 2 => .tmrWrC2 sz v

/-- A command has finished (R242): the fdc fields f of the command's own effect, with stored status st, no transfer,
IDLE; CSR cause 2 is set and no other cause changes. Only `fdc` and `csr` differ from s. -/
def finishedWith (f : Fdc) (st : Byte) (s t : State) : Prop :=
  t = { s with fdc := t.fdc, csr := t.csr } ∧
  t.fdc = { f with status := st, drq := false, xfer := none, multi := false, phase := .idle } ∧
  isWithBit s.csr.bits t.csr.bits 2 true

/-- A transfer waits for its acknowledgment (R251): the fdc fields f with the descriptor x, DRQ set, WAIT_DRQ. -/
def waitsWith (f : Fdc) (x : Xfer) (s t : State) : Prop :=
  t = { s with fdc := { f with xfer := some x, drq := true, phase := .waitDrq } }

/-- A Type I command has finished with the status of R250; f is the controller after the head moved. -/
def typeIDone (h ver : Bool) (f : Fdc) (s t : State) : Prop :=
  ∃ st : Byte, finishedWith f st s t ∧
    ∀ j, j < 8 → st.getLsbD j =
      if j = 2 then decide (f.physTrack = 0)
      else if j = 4 then (ver && !(s.inputs.fdcReady && decide (f.track.toNat = f.physTrack)))
      else if j = 5 then (h || ver)
      else false

/-- The step rows (R247 to R249): none is STEP, otherwise the direction is set first. -/
def stepRow (d : Option StepDir) (u h ver : Bool) (r : BitVec 2) : Instr :=
  match d with
  | none => .fdcStep u h ver r
  | some .inward => .fdcStepIn u h ver r
  | some .outward => .fdcStepOut u h ver r

/-- The head one step on in direction d, held on the disk's 80 tracks. -/
def headAfterStep (phys : Nat) : StepDir → Nat
  | .inward => min (phys + 1) 79
  | .outward => min (phys - 1) 79

/-- The track register one step on in direction d, mod 256. -/
def trackAfterStep (t : Byte) : StepDir → Byte
  | .inward => BitVec.ofNat 8 (t.toNat + 1)
  | .outward => BitVec.ofNat 8 (t.toNat + 255)

/-- The sector commands (R252 to R255). -/
def sectorRow (dir : XferDir) (multi l e sd x : Bool) : Instr :=
  match dir, multi with
  | .toHost, false => .fdcReadSec l e sd x
  | .toHost, true => .fdcReadSecMulti l e sd x
  | .toDisk, false => .fdcWriteSec l e sd x
  | .toDisk, true => .fdcWriteSecMulti l e sd x

/-- The track transfer commands (R257, R258). -/
def trackRow (dir : XferDir) (y e sd x : Bool) : Instr :=
  match dir with
  | .toHost => .fdcReadTrack y e sd x
  | .toDisk => .fdcWriteTrack y e sd x

/-- The controller a sector command acts on: a multi-sector command runs with multi = 1 (R253, R255). -/
def withMulti (multi : Bool) (f : Fdc) : Fdc := if multi then { f with multi := true } else f

/-- The image offset of R251. -/
def imageOffset (f : Fdc) (sector : Nat) : Nat :=
  (f.physTrack * 2 + f.side.toNat) * 4608 + (sector - 1) * 512

/-- What `SectorStart(dir)` does to the controller f (R251), in t after s. -/
def sectorStarted (dir : XferDir) (f : Fdc) (s t : State) : Prop :=
  if s.inputs.fdcReady = false then finishedWith f 0x00 s t
  else if dir = .toDisk ∧ s.inputs.fdcWp = true then finishedWith f 0x40 s t
  else if f.track.toNat = f.physTrack ∧ 1 ≤ f.sector.toNat ∧ f.sector.toNat ≤ 9 then
    waitsWith f { dir := dir, source := .image, offset := imageOffset f f.sector.toNat, length := 512 } s t
  else finishedWith f 0x10 s t

/-- A port with every field 0 (R40). -/
def zeroPort : UartPort :=
  { mode0 := 0, mode1 := 0, modePtr := 0, cmd := 0, status := 0, rxbuf := 0, txbuf := 0, txEn := false, rxEn := false }

/-- The state after `Reset(dev)` where it does not fault (R340 to R344). -/
def resetOf (d : Device) (s : State) : State :=
  match d with
  | .csr => { s with csr := { bits := 0 } }
  | .tmr =>
    { s with tmr := { c0 := { divider := 0, counter := 0 }, c1 := { divider := 0, counter := 0 },
                      c2 := { divider := 0, counter := 0 } } }
  | .uart =>
    { s with uart := { a := zeroPort, b := zeroPort, istat := 0, imask := 0, acr := 0, counterSet := 0,
                       counterValue := 0, counterEnabled := false } }
  | .fdc =>
    { s with fdc := { status := 0, cmd := 0, cmdType := .typeI, track := 0, sector := 0, data := 0, side := false,
                      drq := false, physTrack := 0, stepDir := .inward, phase := .idle, multi := false, xfer := none,
                      idField := ⟨0, 0, 0, 0, 0, 0⟩ } }
  | .nv => if s.nv.allocated then s else { s with nv := { bytes := [], allocated := true } }

/-- The n bytes at offset o as one number, byte o most significant (R290). -/
def bigEndian (m : Memory) (o n : Nat) : Nat :=
  ((List.range n).map fun j => (Memory.read m (o + j)).toNat * 256 ^ (n - 1 - j)).sum

/-- size/8 (R290). -/
def bytesOf (sz : AccSize) : Nat := sz.bits / 8

end Sys2Proof.Claims

open Sys2Proof Sys2Proof.Machine Sys2Proof.Claims

/-! ## Decoding and the step -/

/-- R90 to R97: decoding a well-formed operation's encoding gives the operation, for every operation and every
operand. -/
def Obligations.DecodeOfEncodeIsIdentity : Prop :=
  ∀ i : Instr, i.wellFormed = true → decode (encode i) = .instr i

/-- Whatever the decoder reads is well formed, and its encoding decodes to it again (R90 to R97). For a written value
wider than its access, which R74 excludes, this holds because the decoder cuts the value: the model's choice (log 10). -/
def Obligations.DecodedIsWellFormedAndReencodes : Prop :=
  ∀ (a : Access) (i : Instr), decode a = .instr i → i.wellFormed = true ∧ decode (encode i) = .instr i

/-- R90, R71: an access of a register device names no operation exactly where its offset lies outside the device's
window; every access in the other three formats names one. -/
def Obligations.OnlyOffsetsOutsideTheWindowAreRejected : Prop :=
  ∀ a : Access, (∃ e, decode a = .rejected e) ↔
    match a with
    | .bus .csr _ _ _ => False
    | .bus .uart sel _ _ => 16 ≤ sel.toNat % 128
    | .bus .tmr sel _ _ => 4 ≤ sel.toNat % 128
    | .bus .fdc sel _ _ => 4 ≤ sel.toNat % 128
    | .nv _ _ _ _ => False
    | .uartCmd _ _ => False
    | .fdcCmd _ => False

/-- Words written out from R91 to R97, one or two a family. -/
def Obligations.SampleWordsDecode : Prop :=
  decode (.bus .uart 0x82 .w8 0x05) = .instr (.uartWrCra .w8 0x05) ∧
  decode (.bus .uart 0x0F .w16 0) = .instr (.uartRdStop .w16) ∧
  decode (.bus .tmr 0x81 .w16 0x0102) = .instr (.tmrWrC1 .w16 0x0102) ∧
  decode (.bus .csr 0xCF .w8 0) = .instr (.csrSet 3 .w8 0) ∧
  decode (.bus .csr 0x0B .w8 0) = .instr (.csrRd false 2 .w8) ∧
  decode (.bus .fdc 0x80 .w8 0xA0) = .instr (.fdcWrCmd .w8 0xA0) ∧
  decode (.nv 0x80 4 .w16 0xABCD) = .instr (.nvWr 4 .w16 0xABCD) ∧
  decode (.uartCmd .b 0x21) = .instr (.uartCmdMisc2 .b false false false false true) ∧
  decode (.fdcCmd 0x70) = .instr (.fdcStepOut true false false 0) ∧
  decode (.fdcCmd 0xC2) = .instr (.fdcReadAddress false false true false)

/-- R2, R84: where the oldest operation issued is an access that decodes to i (a bus or NVRAM access, or a UART command
byte), the step is `exec i`, with the operation taken off the queue and nothing returned yet; a floppy command byte
is the write of it at FDC offset 0 (R97); with no operation issued the state persists (R325). -/
def Obligations.StepRunsTheDecodedAccess : Prop :=
  ∀ (s : State) (a : Access) (rest : List Op) (i : Instr),
    (s.pending = .access a :: rest → (∀ b, a ≠ .fdcCmd b) → decode a = .instr i →
      step s = exec i { s with pending := rest, returned := none }) ∧
    (∀ b, s.pending = .access (.fdcCmd b) :: rest →
      step s = exec (.fdcWrCmd .w8 (b.setWidth 32)) { s with pending := rest, returned := none }) ∧
    (s.pending = [] → step s = .next s)

/-- R243, R244: at the execution tick the step is `exec` of the command decoded from `fdc.cmd` (that `exec` of the row is
its execution is log 8); before it, one tick is counted; in IDLE and WAIT_DRQ nothing happens. EXEC(0) and a class IV
byte in `fdc.cmd` at that tick, which no run reaches, run by the model's choice (log 15). -/
def Obligations.FdcTickRunsTheCommandInCmd : Prop :=
  ∀ (s : State) (rest : List Op), s.pending = .service .fdc :: rest →
    (∀ n i, n ≤ 1 → s.fdc.phase = .exec n → decode (.fdcCmd s.fdc.cmd) = .instr i →
      step s = exec i { s with pending := rest, returned := none }) ∧
    (∀ n, 1 < n → s.fdc.phase = .exec n →
      step s = .next { s with pending := rest, returned := none, fdc := { s.fdc with phase := .exec (n - 1) } }) ∧
    ((s.fdc.phase = .idle ∨ s.fdc.phase = .waitDrq) →
      step s = .next { s with pending := rest, returned := none })

/-- R83, R310: an access of a register device outside its window changes nothing, and a read of one returns 0. -/
def Obligations.AccessOutsideTheWindowDoesNothing : Prop :=
  ∀ (s : State) (dev : RegDevice) (sel : Byte) (sz : AccSize) (v : Word) (e : DecodeError) (rest : List Op),
    s.pending = .access (.bus dev sel sz v) :: rest → decode (.bus dev sel sz v) = .rejected e →
    ∃ t, step s = .next t ∧ t = { s with pending := rest, returned := t.returned } ∧
      if sel.getLsbD 7 then t.returned = none else answers t sz 0

/-- R70: an access at a physical address in the window of a device, and of no other, is the device's access at the
offset `pa − base`; one outside every window never reaches the block. The first address alone decides, also for an
access that runs past the window's end: the model's choice (log 14). -/
def Obligations.PhysicalAccessIsRouted : Prop :=
  ∀ (s : State) (dir : AccessDir) (pa : Nat) (sz : AccSize) (v : Word) (rest : List Op),
    s.pending = .phys dir pa sz v :: rest →
    (∀ dev rd, (∀ d, inWindow s.params d pa = true ↔ d = dev) →
      (dev, rd) ∈ [(Device.csr, RegDevice.csr), (.tmr, .tmr), (.uart, .uart), (.fdc, .fdc)] →
      ∃ sel : Byte, sel.toNat = (if dir = .write then 128 else 0) + (pa - windowBase s.params dev) ∧
        step s = step { s with pending := .access (.bus rd sel sz v) :: rest }) ∧
    ((∀ d, inWindow s.params d pa = true ↔ d = .nv) →
      ∃ sel : Byte, sel.toNat = (if dir = .write then 128 else 0) ∧
        step s = step { s with pending := .access (.nv sel (pa - s.params.nvramBase) sz v) :: rest }) ∧
    ((∀ d, inWindow s.params d pa = false) → step s = .next { s with pending := rest, returned := none })

/-- R310, R311, R10: no step refuses, and a step faults only in an NVRAM access, the first reset of the NVRAM (the store
not yet allocated), a load or a save. A host stops on NV_ALLOC alone: after another fault it goes on from the state
before the operation, the operation off the queue and nothing returned (log 11). -/
def Obligations.OnlyTheStoreFaults : Prop :=
  ∀ s : State,
    (∀ r, step s ≠ .refused r) ∧
    (∀ f, step s = .fault f → ∃ op, s.pending.head? = some op ∧
      ((∃ sel off sz v, op = .access (.nv sel off sz v)) ∨
        (∃ dir pa sz v, op = .phys dir pa sz v ∧ inWindow s.params .nv pa = true) ∨
        (op = .reset .nv ∧ s.nv.allocated = false) ∨ (∃ image, op = .nvLoad image) ∨ op = .nvSave)) ∧
    (∀ f, step s = .fault f →
      stepOn s = if f = .nvAlloc then .fault f else .next { s with pending := s.pending.tail, returned := none })

/-! ## CSR -/

/-- R121: CSR.RD returns the named cause in bit 0, at every size and either window, and changes nothing. -/
def Obligations.CsrReadReturnsTheCause : Prop :=
  ∀ (s : State) (w : Bool) (k : BitVec 4) (sz : AccSize),
    readDecodes .csr (64 * w.toNat + 4 * k.toNat + 3) sz (.csrRd w k sz) ∧ ∃ t,
    exec (.csrRd w k sz) s = .next t ∧ t = { s with returned := t.returned } ∧
    answers t sz (if s.csr.bits.getLsbD k.toNat then 1 else 0)

/-- R124, R125: CSR.CLR clears and CSR.SET sets the named cause whatever the size and payload; no other cause, no
other field and no event. -/
def Obligations.CsrWritesChangeOneCause : Prop :=
  ∀ (s : State) (k : BitVec 4) (sz : AccSize) (v : Word),
    writeDecodes .csr (0x80 + 4 * k.toNat + 3) sz v (.csrClr k sz) ∧
    writeDecodes .csr (0xC0 + 4 * k.toNat + 3) sz v (.csrSet k sz) ∧
    (∃ t, exec (.csrClr k sz v) s = .next t ∧ t = { s with csr := t.csr } ∧
      isWithBit s.csr.bits t.csr.bits k.toNat false) ∧
    (∃ t, exec (.csrSet k sz v) s = .next t ∧ t = { s with csr := t.csr } ∧
      isWithBit s.csr.bits t.csr.bits k.toNat true)

/-- E1: a write at a cause's set offset and then a read at its offset in either window returns 1, whatever the payload;
a write at its clear offset and then a read returns 0. -/
def Obligations.CsrSetOrClearThenReadBack : Prop :=
  ∀ (s : State) (k : Fin 16) (w : Bool) (wsz rsz : AccSize) (v : Word) (rest : List Op),
    (s.pending = .access (.bus .csr (BitVec.ofNat 8 (0xC0 + 4 * k + 3)) wsz v) ::
        .access (.bus .csr (BitVec.ofNat 8 (64 * w.toNat + 4 * k + 3)) rsz 0) :: rest →
      ∃ t, Sys2Proof.core.run 2 s = .next t ∧ answers t rsz 1 ∧ t.pending = rest) ∧
    (s.pending = .access (.bus .csr (BitVec.ofNat 8 (0x80 + 4 * k + 3)) wsz v) ::
        .access (.bus .csr (BitVec.ofNat 8 (64 * w.toNat + 4 * k + 3)) rsz 0) :: rest →
      ∃ t, Sys2Proof.core.run 2 s = .next t ∧ answers t rsz 0 ∧ t.pending = rest)

/-- R122, R142, R180, R182, R184, R185, R188, R190, R191: the reserved, unimplemented and unmapped reads return 0 and
change nothing. -/
def Obligations.ReservedReadsReturnZero : Prop :=
  ∀ (s : State) (sz : AccSize) (x : BitVec 5) (dev : RegDevice) (sel : Nat) (i : Instr),
    (dev, sel, i) ∈ reservedReads x sz →
    readDecodes dev sel sz i ∧ ∃ t, exec i s = .next t ∧ t = { s with returned := t.returned } ∧ answers t sz 0

/-- R126, R144, R195, R203, R206 to R209: the reserved, unimplemented and unmapped writes change nothing. -/
def Obligations.UnimplementedWritesChangeNothing : Prop :=
  ∀ (s : State) (sz : AccSize) (v : Word) (x : BitVec 5) (dev : RegDevice) (sel : Nat) (op : Word → Instr),
    (dev, sel, op) ∈ unimplementedWrites x sz →
    writeDecodes dev sel sz v op ∧ exec (op v) s = .next s

/-- R22, R38, R6: no step changes the parameters or takes an event out of the history, and a step that is no CSR
access, no access at a physical address and no CSR reset changes no cause but 2 and 3. -/
def Obligations.StepOnlyAddsHistoryAndDrivesTwoCauses : Prop :=
  ∀ (s t : State), step s = .next t →
    t.params = s.params ∧ (∃ evs, t.history = s.history ++ evs) ∧
    ((∀ op, s.pending.head? = some op →
        (∀ sel sz v, op ≠ .access (.bus .csr sel sz v)) ∧ (∀ dir pa sz v, op ≠ .phys dir pa sz v) ∧
          op ≠ .reset .csr) →
      ∀ k, k ≠ 2 → k ≠ 3 → t.csr.bits.getLsbD k = s.csr.bits.getLsbD k)

/-! ## Timer -/

/-- R141: a channel read returns the low byte of its counter at every size and changes nothing. -/
def Obligations.TimerReadReturnsLowByte : Prop :=
  ∀ (s : State) (c : Fin 3) (sz : AccSize), readDecodes .tmr c sz (tmrReadOp c sz) ∧ ∃ t,
    exec (tmrReadOp c sz) s = .next t ∧ t = { s with returned := t.returned } ∧
    answers t sz ((chan s.tmr c).counter.toNat % 256)

/-- R143: a load of a value of the access's size (R9) puts its low 16 bits into the channel's divider and counter; no
other channel, no other field. -/
def Obligations.TimerLoadSetsDividerAndCounter : Prop :=
  ∀ (s : State) (c : Fin 3) (sz : AccSize) (v : Word), v.toNat < 2 ^ sz.bits →
    writeDecodes .tmr (0x80 + c) sz v (tmrLoadOp c sz) ∧ ∃ t,
    exec (tmrLoadOp c sz v) s = .next t ∧ t = { s with tmr := t.tmr } ∧
    (chan t.tmr c).divider.toNat = v.toNat % 65536 ∧
    (chan t.tmr c).counter = (chan t.tmr c).divider ∧
    ∀ d, d ≠ c → chan t.tmr d = chan s.tmr d

/-- R145, R146: a timer tick changes the three counters and nothing else, each by its own rule: reloaded from the
divider at a count of 0 or 1, else one less; no CSR bit, no event. -/
def Obligations.TimerTickRule : Prop :=
  ∀ (s : State) (rest : List Op), s.pending = .service .tmr :: rest →
    ∃ t, step s = .next t ∧ t = { s with tmr := t.tmr, pending := rest, returned := none } ∧
    ∀ c, (chan t.tmr c).divider = (chan s.tmr c).divider ∧
      (chan t.tmr c).counter.toNat =
        if (chan s.tmr c).counter.toNat ≤ 1 then (chan s.tmr c).divider.toNat
        else (chan s.tmr c).counter.toNat - 1

/-- R147: N ticks after a load with divider D ≥ 1 the counter is D − (N mod D); with D = 0 it is 0. The load is a bus
write at the channel's offset, and only timer ticks follow. A value wider than its access, which R74 excludes, is cut to
the access's size: the model's choice (log 10). -/
def Obligations.TimerPeriodLaw : Prop :=
  ∀ (s : State) (c : Fin 3) (sz : AccSize) (v : Word) (n : Nat) (rest : List Op),
    s.pending = .access (.bus .tmr (BitVec.ofNat 8 (0x80 + c)) sz v) :: (List.replicate n (.service .tmr) ++ rest) →
    ∃ t, Sys2Proof.core.run (n + 1) s = .next t ∧ t.pending = rest ∧
      (chan t.tmr c).counter.toNat =
        (let d := (v.toNat % 2 ^ sz.bits) % 65536
         if d = 0 then 0 else d - n % d)

/-- R147, R145: every step of the machine keeps each channel's count at most its divider, and nonzero where the divider
is nonzero. -/
def Obligations.StepKeepsTimerCountsBounded : Prop :=
  ∀ (s t : State), (∀ c, (chan s.tmr c).inv) → step s = .next t → ∀ c, (chan t.tmr c).inv

/-! ## UART -/

/-- R163, R178, R186: a mode read returns the register under the cursor and moves the cursor to the other one. -/
def Obligations.ModeReadCyclesTheCursor : Prop :=
  ∀ (s : State) (p : Port) (sz : AccSize), readDecodes .uart (portBase p) sz (modeReadOp p sz) ∧ ∃ t,
    exec (modeReadOp p sz) s = .next t ∧ t = { s with uart := t.uart, returned := t.returned } ∧
    t.uart = s.uart.setPort p { s.uart.port p with modePtr := (t.uart.port p).modePtr } ∧
    (t.uart.port p).modePtr.toNat = 1 - (s.uart.port p).modePtr.toNat ∧
    answers t sz (if (s.uart.port p).modePtr = 0 then (s.uart.port p).mode0 else (s.uart.port p).mode1).toNat

/-- R163, R194, R202: a mode write stores value[7:0] in the register under the cursor and moves the cursor. -/
def Obligations.ModeWriteStoresUnderTheCursor : Prop :=
  ∀ (s : State) (p : Port) (sz : AccSize) (v : Word),
    writeDecodes .uart (0x80 + portBase p) sz v (modeWriteOp p sz) ∧ ∃ t,
    exec (modeWriteOp p sz v) s = .next t ∧ t = { s with uart := t.uart } ∧
    t.uart = s.uart.setPort p
      { s.uart.port p with
        modePtr := (t.uart.port p).modePtr
        mode0 := if (s.uart.port p).modePtr = 0 then v.setWidth 8 else (s.uart.port p).mode0
        mode1 := if (s.uart.port p).modePtr = 0 then (s.uart.port p).mode1 else v.setWidth 8 } ∧
    (t.uart.port p).modePtr.toNat = 1 - (s.uart.port p).modePtr.toNat

/-- E3: after two mode writes from cursor 0, two reads return the two values in order and a third the first again. -/
def Obligations.ModeWritesReadBackInTurn : Prop :=
  ∀ (s t1 t2 t3 t4 t5 : State) (p : Port) (v1 v2 : Word), (s.uart.port p).modePtr = 0 →
    exec (modeWriteOp p .w8 v1) s = .next t1 → exec (modeWriteOp p .w8 v2) t1 = .next t2 →
    exec (modeReadOp p .w8) t2 = .next t3 → exec (modeReadOp p .w8) t3 = .next t4 →
    exec (modeReadOp p .w8) t4 = .next t5 →
    answers t3 .w8 (v1.toNat % 256) ∧ answers t4 .w8 (v2.toNat % 256) ∧ answers t5 .w8 (v1.toNat % 256)

/-- R164, R179, R187: a status read returns the status before it clears RXR and the port's receive istat bit; the
interrupt is recomputed. -/
def Obligations.StatusReadReturnsThenClears : Prop :=
  ∀ (s : State) (p : Port) (sz : AccSize), readDecodes .uart (portBase p + 1) sz (statusReadOp p sz) ∧ ∃ t,
    exec (statusReadOp p sz) s = .next t ∧
    t = { s with uart := t.uart, csr := t.csr, history := t.history, returned := t.returned } ∧
    answers t sz (s.uart.port p).status.toNat ∧ rxCleared p s.uart t.uart ∧ interruptFollows [] s t

/-- R165, R181, R189: a receive read returns the status over rxbuf (rxbuf alone at 8 bits), both before the clear; rxbuf
is kept; the interrupt is recomputed. -/
def Obligations.ReceiveReadReturnsComposite : Prop :=
  ∀ (s : State) (p : Port) (sz : AccSize), readDecodes .uart (portBase p + 3) sz (rxReadOp p sz) ∧ ∃ t,
    exec (rxReadOp p sz) s = .next t ∧
    t = { s with uart := t.uart, csr := t.csr, history := t.history, returned := t.returned } ∧
    answers t sz ((256 * (s.uart.port p).status.toNat + (s.uart.port p).rxbuf.toNat) % 2 ^ sz.bits) ∧
    rxCleared p s.uart t.uart ∧ interruptFollows [] s t

/-- R183: the istat read returns every bit, masked or not, and changes nothing. R192, R193: the start read enables the
counter and changes nothing else; the stop read disables it, clears CRI and recomputes; both return 0 and neither
reloads the count. -/
def Obligations.IsrStartAndStopReads : Prop :=
  ∀ (s : State) (sz : AccSize),
    readDecodes .uart 5 sz (.uartRdIsr sz) ∧ readDecodes .uart 14 sz (.uartRdStart sz) ∧
    readDecodes .uart 15 sz (.uartRdStop sz) ∧
    (∃ t, exec (.uartRdIsr sz) s = .next t ∧ t = { s with returned := t.returned } ∧
      answers t sz s.uart.istat.toNat) ∧
    (∃ t, exec (.uartRdStart sz) s = .next t ∧
      t = { s with uart := { s.uart with counterEnabled := true }, returned := t.returned } ∧ answers t sz 0) ∧
    (∃ t, exec (.uartRdStop sz) s = .next t ∧
      t = { s with uart := t.uart, csr := t.csr, history := t.history, returned := t.returned } ∧
      t.uart = { s.uart with counterEnabled := false, istat := t.uart.istat } ∧
      isWithBit s.uart.istat t.uart.istat 3 false ∧ answers t sz 0 ∧ interruptFollows [] s t)

/-- R166 with R162 and R170 to R174: what a command write at offset 2 or 10 leaves, for every byte: the command byte,
the enables, the misc command, the transmit status of both ports, the interrupt. -/
def Obligations.CommandWriteRule : Prop :=
  ∀ (s : State) (p : Port) (sz : AccSize) (v : Word),
    writeDecodes .uart (0x80 + portBase p + 2) sz v (commandWriteOp p sz) ∧ ∃ t,
    exec (commandWriteOp p sz v) s = .next t ∧
    commandDone p (v.setWidth 8) (v.toNat / 16 % 8)
      (txAfter (v.getLsbD 2) (v.getLsbD 3) (s.uart.port p).txEn)
      (txAfter (v.getLsbD 0) (v.getLsbD 1) (s.uart.port p).rxEn) s t

/-- R166, R170 to R177: what each UART command row leaves: the byte in `cmd`, the enables, the row's misc command, the
transmit status of both ports, the interrupt. -/
def Obligations.CommandRowsRule : Prop :=
  ∀ (s : State) (m : Nat) (p : Port) (x dtx etx drx erx : Bool), m < 8 → ∃ t,
    exec (commandRow m p x dtx etx drx erx) s = .next t ∧
    commandDone p (BitVec.ofNat 8 (commandByteNat x m dtx etx drx erx)) m
      (txAfter etx dtx (s.uart.port p).txEn) (txAfter erx drx (s.uart.port p).rxEn) s t

/-- R167: a transmit write keeps the byte in txbuf, emits it exactly where the transmitter is enabled, and updates the
transmit status of both ports and the interrupt. -/
def Obligations.TransmitWriteRule : Prop :=
  ∀ (s : State) (p : Port) (sz : AccSize) (v : Word),
    writeDecodes .uart (0x80 + portBase p + 3) sz v (txWriteOp p sz) ∧ ∃ t,
    exec (txWriteOp p sz v) s = .next t ∧
    t = { s with uart := t.uart, csr := t.csr, history := t.history } ∧
    t.uart = { s.uart with a := t.uart.a, b := t.uart.b, istat := t.uart.istat } ∧
    t.uart.port p = { s.uart.port p with txbuf := v.setWidth 8, status := (t.uart.port p).status } ∧
    t.uart.port (other p) = { s.uart.port (other p) with status := (t.uart.port (other p)).status } ∧
    (∀ q, statusIs (s.uart.port q).status (t.uart.port q).status (s.uart.port q).txEn (fun _ => true)) ∧
    (∀ j, j < 8 → t.uart.istat.getLsbD j =
      if j = 0 then s.uart.a.txEn else if j = 4 then s.uart.b.txEn else s.uart.istat.getLsbD j) ∧
    interruptFollows (if (s.uart.port p).txEn then [.tx p (v.setWidth 8)] else []) s t

/-- R198, R200, R201: the auxiliary control byte is stored and nothing else; a preset byte goes into its half of both
counter fields, the other halves are kept, and nothing else changes. R199: a mask write stores the mask and recomputes
at once. -/
def Obligations.SharedRegisterWrites : Prop :=
  ∀ (s : State) (sz : AccSize) (v : Word),
    writeDecodes .uart 0x84 sz v (.uartWrAcr sz) ∧ writeDecodes .uart 0x85 sz v (.uartWrImr sz) ∧
    writeDecodes .uart 0x86 sz v (.uartWrCtur sz) ∧ writeDecodes .uart 0x87 sz v (.uartWrCtlr sz) ∧
    exec (.uartWrAcr sz v) s = .next { s with uart := { s.uart with acr := v.setWidth 8 } } ∧
    (∃ t, exec (.uartWrCtur sz v) s = .next t ∧
      t = { s with uart := { s.uart with counterSet := t.uart.counterSet, counterValue := t.uart.counterValue } } ∧
      t.uart.counterSet.toNat = 256 * (v.toNat % 256) + s.uart.counterSet.toNat % 256 ∧
      t.uart.counterValue.toNat = 256 * (v.toNat % 256) + s.uart.counterValue.toNat % 256) ∧
    (∃ t, exec (.uartWrCtlr sz v) s = .next t ∧
      t = { s with uart := { s.uart with counterSet := t.uart.counterSet, counterValue := t.uart.counterValue } } ∧
      t.uart.counterSet.toNat = 256 * (s.uart.counterSet.toNat / 256) + v.toNat % 256 ∧
      t.uart.counterValue.toNat = 256 * (s.uart.counterValue.toNat / 256) + v.toNat % 256) ∧
    (∃ t, exec (.uartWrImr sz v) s = .next t ∧
      t = { s with uart := { s.uart with imask := v.setWidth 8 }, csr := t.csr, history := t.history } ∧
      interruptFollows [] s t)

/-- R210, R212: a UART tick with no character: a disabled counter does not move; an enabled one drops by the step, or
expires at or below it: CRI is set, the preset reloaded, the counter disabled, the interrupt recomputed. -/
def Obligations.CounterTickRule : Prop :=
  ∀ (s : State) (rest : List Op), s.pending = .service .uart :: rest → s.inputs.kbd = none →
    (s.uart.counterEnabled = false → step s = .next { s with pending := rest, returned := none }) ∧
    (s.uart.counterEnabled = true → s.params.uartCtrStep < s.uart.counterValue.toNat →
      ∃ t, step s = .next t ∧
        t = { s with pending := rest, returned := none,
                     uart := { s.uart with counterValue := t.uart.counterValue } } ∧
        t.uart.counterValue.toNat = s.uart.counterValue.toNat - s.params.uartCtrStep) ∧
    (s.uart.counterEnabled = true → s.uart.counterValue.toNat ≤ s.params.uartCtrStep →
      ∃ t, step s = .next t ∧
        t = { s with pending := rest, returned := none, uart := t.uart, csr := t.csr, history := t.history } ∧
        t.uart = { s.uart with counterValue := s.uart.counterSet, counterEnabled := false, istat := t.uart.istat } ∧
        isWithBit s.uart.istat t.uart.istat 3 true ∧ interruptFollows [] s t)

/-- R210's corner case: an enabled counter at P ≥ 1 with step S, ticked with no character, has dropped by N·S after
N ticks while N·S < P, and on tick ⌈P/S⌉ it expires: CRI set, the preset reloaded, disabled. -/
def Obligations.CounterExpiresOnItsTick : Prop :=
  ∀ (s : State) (n : Nat) (rest : List Op), s.uart.counterEnabled = true → s.inputs.kbd = none →
    1 ≤ s.uart.counterValue.toNat →
    s.pending = List.replicate n (.service .uart) ++ rest →
    (n * s.params.uartCtrStep < s.uart.counterValue.toNat →
      ∃ t, Sys2Proof.core.run n s = .next t ∧ t.uart.counterEnabled = true ∧ t.uart.istat = s.uart.istat ∧
        t.uart.counterValue.toNat = s.uart.counterValue.toNat - n * s.params.uartCtrStep) ∧
    (n = (s.uart.counterValue.toNat + s.params.uartCtrStep - 1) / s.params.uartCtrStep →
      ∃ t, Sys2Proof.core.run n s = .next t ∧ t.uart.counterEnabled = false ∧
        t.uart.counterValue = s.uart.counterSet ∧ isWithBit s.uart.istat t.uart.istat 3 true)

/-- R169, R211, R212: a UART tick with a character c offered, told from t0, what the same tick leaves with none offered
(the counter's part, which comes first). With port A's receiver disabled c is used up and lost. With it enabled, each
port with its receiver enabled and RXR clear takes c and sets RXR and its istat bit; one with RXR set keeps its byte;
one with its receiver disabled loses RXR and its istat bit; then the interrupt is recomputed. -/
def Obligations.ReceivePathRule : Prop :=
  ∀ (s t0 : State) (rest : List Op) (c : Byte),
    s.pending = .service .uart :: rest → s.inputs.kbd = some c →
    step { s with inputs := { s.inputs with kbd := none } } = .next t0 →
    (s.uart.a.rxEn = false → step s = .next t0) ∧
    (s.uart.a.rxEn = true → ∃ t, step s = .next t ∧
      t = { t0 with uart := t.uart, csr := t.csr, history := t.history } ∧
      t.uart = { t0.uart with a := t.uart.a, b := t.uart.b, istat := t.uart.istat } ∧
      (∀ p, t.uart.port p =
        { t0.uart.port p with
          status := (t.uart.port p).status
          rxbuf := if (t0.uart.port p).rxEn && !(t0.uart.port p).status.getLsbD 0 then c else (t0.uart.port p).rxbuf }) ∧
      (∀ p, isWithBit (t0.uart.port p).status (t.uart.port p).status 0 (t0.uart.port p).rxEn) ∧
      (∀ j, j < 8 → t.uart.istat.getLsbD j =
        if j = 1 then t0.uart.a.rxEn && (!t0.uart.a.status.getLsbD 0 || t0.uart.istat.getLsbD 1)
        else if j = 5 then t0.uart.b.rxEn && (!t0.uart.b.status.getLsbD 0 || t0.uart.istat.getLsbD 5)
        else t0.uart.istat.getLsbD j) ∧
      interruptFollows [] t0 t)

/-- Every step keeps TXR, TXE and the transmit istat bits equal to the transmitter enables (R30), RAI and RBI equal to the
ports' receiver-ready bits (R26), and at 0 the status and istat bits that nothing sets (R213), each by itself. -/
def Obligations.StepKeepsUartInvariants : Prop :=
  ∀ (s t : State), step s = .next t →
    (s.uart.txInv → t.uart.txInv) ∧ (s.uart.rxInv → t.uart.rxInv) ∧ (s.uart.unsetInv → t.uart.unsetInv)

/-! ## Floppy controller -/

/-- R233, R234: a status read returns the stored status with its live bits in the layout of `cmd_type`, and clears CSR
cause 2. In the Type I layout INDEX is some bit, drawn; the draws are all that changes beside. -/
def Obligations.FdcStatusReadRule : Prop :=
  ∀ (s : State) (sz : AccSize), readDecodes .fdc 0 sz (.fdcRdStatus sz) ∧ ∃ (t : State) (index : Bool) (st : Byte),
    exec (.fdcRdStatus sz) s = .next t ∧
    t = { s with csr := t.csr, inputs := t.inputs, returned := t.returned } ∧
    isWithBit s.csr.bits t.csr.bits 2 false ∧ answers t sz st.toNat ∧
    if s.fdc.cmdType = .typeI ∨ s.fdc.cmdType = .typeIV then
      t.inputs = { s.inputs with draws := t.inputs.draws, drawCount := t.inputs.drawCount } ∧
      ∀ j, j < 8 → st.getLsbD j =
        if j = 7 then !s.inputs.fdcReady else if j = 6 then s.inputs.fdcWp
        else if j = 2 then decide (s.fdc.physTrack = 0) else if j = 1 then index
        else s.fdc.status.getLsbD j
    else
      t.inputs = s.inputs ∧
      ∀ j, j < 8 → st.getLsbD j =
        if j = 7 then !s.inputs.fdcReady else if j = 1 then s.fdc.drq else s.fdc.status.getLsbD j

/-- R236 to R241: the track, sector and data registers read and write plainly, in every phase. -/
def Obligations.FdcRegistersReadAndWrite : Prop :=
  ∀ (s : State) (sz : AccSize) (v : Word),
    readDecodes .fdc 1 sz (.fdcRdTrack sz) ∧ readDecodes .fdc 2 sz (.fdcRdSector sz) ∧
    readDecodes .fdc 3 sz (.fdcRdData sz) ∧ writeDecodes .fdc 0x81 sz v (.fdcWrTrack sz) ∧
    writeDecodes .fdc 0x82 sz v (.fdcWrSector sz) ∧ writeDecodes .fdc 0x83 sz v (.fdcWrData sz) ∧
    (∃ t, exec (.fdcRdTrack sz) s = .next t ∧ t = { s with returned := t.returned } ∧ answers t sz s.fdc.track.toNat) ∧
    (∃ t, exec (.fdcRdSector sz) s = .next t ∧ t = { s with returned := t.returned } ∧ answers t sz s.fdc.sector.toNat) ∧
    (∃ t, exec (.fdcRdData sz) s = .next t ∧ t = { s with returned := t.returned } ∧ answers t sz s.fdc.data.toNat) ∧
    exec (.fdcWrTrack sz v) s = .next { s with fdc := { s.fdc with track := v.setWidth 8 } } ∧
    exec (.fdcWrSector sz v) s = .next { s with fdc := { s.fdc with sector := v.setWidth 8 } } ∧
    exec (.fdcWrData sz v) s = .next { s with fdc := { s.fdc with data := v.setWidth 8 } }

/-- R235: with BUSY clear, a command byte of class I, II or III is accepted: it stands in `cmd` with its class, BUSY is
the only status bit, no transfer, the side of a class II or III byte, multi of READ/WRITE_SEC_MULTI, FDC_LATENCY ticks
to go; CSR cause 2 is cleared. With BUSY set such a byte changes nothing (R357). A byte of class IV is
FORCE_INTERRUPT, whatever BUSY is. -/
def Obligations.FdcCommandAcceptedOrIgnored : Prop :=
  ∀ (s : State) (sz : AccSize) (v : Word),
    writeDecodes .fdc 0x80 sz v (.fdcWrCmd sz) ∧
    (v.toNat / 16 % 16 = 0xD →
      exec (.fdcWrCmd sz v) s = exec (.fdcForceInterrupt (BitVec.ofNat 4 (v.toNat % 16))) s) ∧
    (v.toNat / 16 % 16 ≠ 0xD → s.fdc.status.getLsbD 0 = true → exec (.fdcWrCmd sz v) s = .next s) ∧
    (v.toNat / 16 % 16 ≠ 0xD → s.fdc.status.getLsbD 0 = false → ∃ t,
      exec (.fdcWrCmd sz v) s = .next t ∧ t = { s with fdc := t.fdc, csr := t.csr } ∧
      isWithBit s.csr.bits t.csr.bits 2 false ∧
      t.fdc = { s.fdc with
        cmd := v.setWidth 8
        cmdType := if v.toNat / 16 % 16 < 8 then .typeI else if v.toNat / 16 % 16 < 0xC then .typeII else .typeIII
        status := 0x01
        drq := false
        xfer := none
        side := if v.toNat / 16 % 16 < 8 then s.fdc.side else v.getLsbD 1
        multi := decide (v.toNat / 16 % 16 = 0x9 ∨ v.toNat / 16 % 16 = 0xB)
        phase := .exec s.params.fdcLatency })

/-- R259: FORCE_INTERRUPT ends whatever runs, in every state; CSR cause 2 becomes I3. -/
def Obligations.ForceInterruptRule : Prop :=
  ∀ (s : State) (cond : BitVec 4),
    ∃ t, exec (.fdcForceInterrupt cond) s = .next t ∧ t = { s with fdc := t.fdc, csr := t.csr } ∧
      isWithBit s.csr.bits t.csr.bits 2 (cond.getLsbD 3) ∧
      t.fdc = { s.fdc with
        cmd := BitVec.ofNat 8 (0xD0 + cond.toNat), cmdType := .typeIV, phase := .idle, drq := false, xfer := none,
        multi := false, status := 0x00 }

/-- R245, R250: RESTORE brings the head and the track register to 0 and finishes, ready or not. -/
def Obligations.RestoreRule : Prop :=
  ∀ (s : State) (h ver : Bool) (r : BitVec 2), ∃ t,
    exec (.fdcRestore h ver r) s = .next t ∧
    typeIDone h ver { s.fdc with physTrack := 0, track := 0, stepDir := .outward } s t

/-- R246, R250: SEEK moves the head by data − track, held to tracks 0 to 79, loads the track register from the data
register and finishes; the step direction is the sign of the difference, kept where it is 0. -/
def Obligations.SeekRule : Prop :=
  ∀ (s : State) (h ver : Bool) (r : BitVec 2), ∃ t,
    exec (.fdcSeek h ver r) s = .next t ∧
    typeIDone h ver
      { s.fdc with
        physTrack := min (s.fdc.physTrack + s.fdc.data.toNat - s.fdc.track.toNat) 79
        track := s.fdc.data
        stepDir :=
          if s.fdc.track.toNat < s.fdc.data.toNat then .inward
          else if s.fdc.data.toNat < s.fdc.track.toNat then .outward
          else s.fdc.stepDir } s t

/-- R247, R248, R249, R250: the step commands move the head by one in the last direction (STEP), inward (STEP_IN) or
outward (STEP_OUT), held to tracks 0 to 79; with u the track register moves too, mod 256; then they finish. -/
def Obligations.StepCommandsRule : Prop :=
  ∀ (s : State) (d : Option StepDir) (u h ver : Bool) (r : BitVec 2), ∃ t,
    exec (stepRow d u h ver r) s = .next t ∧
    typeIDone h ver
      { s.fdc with
        stepDir := d.getD s.fdc.stepDir
        physTrack := headAfterStep s.fdc.physTrack (d.getD s.fdc.stepDir)
        track := if u then trackAfterStep s.fdc.track (d.getD s.fdc.stepDir) else s.fdc.track } s t

/-- R251 with R252 to R255: what a sector command does at its execution, in every case: not ready, write-protected, the
sector not found, or the 512 bytes of the sector requested, which lie inside the image of 737280 bytes. A multi-sector
command runs with multi = 1 (R253, R255), also where multi was 0 before: the model's reading (log 17). -/
def Obligations.SectorCommandsRule : Prop :=
  ∀ (s : State) (dir : XferDir) (multi l e sd x : Bool),
    (∃ t, exec (sectorRow dir multi l e sd x) s = .next t ∧ sectorStarted dir (withMulti multi s.fdc) s t) ∧
    (s.fdc.physTrack < 80 → 1 ≤ s.fdc.sector.toNat → s.fdc.sector.toNat ≤ 9 →
      imageOffset s.fdc s.fdc.sector.toNat + 512 ≤ 737280)

/-- R256: READ_ADDRESS with the drive ready builds the ID record with some sector number of 1 to 9 and some CRC, puts the
head's track into the sector register, and waits with the 6-byte record; not ready, it finishes with status 0. -/
def Obligations.ReadAddressRule : Prop :=
  ∀ (s : State) (y e sd x : Bool),
    (s.inputs.fdcReady = false → ∃ t, exec (.fdcReadAddress y e sd x) s = .next t ∧ finishedWith s.fdc 0x00 s t) ∧
    (s.inputs.fdcReady = true → ∃ (t : State) (n : Nat) (crc : Half), 1 ≤ n ∧ n ≤ 9 ∧
      exec (.fdcReadAddress y e sd x) s = .next t ∧
      t = { s with
        inputs := { s.inputs with draws := t.inputs.draws, drawCount := t.inputs.drawCount }
        fdc := { s.fdc with
          sector := BitVec.ofNat 8 s.fdc.physTrack
          idField :=
            { track := BitVec.ofNat 8 s.fdc.physTrack
              side := BitVec.ofNat 8 s.fdc.side.toNat
              sector := BitVec.ofNat 8 n
              sizeCode := 0x02
              crcHigh := BitVec.ofNat 8 (crc.toNat / 256)
              crcLow := BitVec.ofNat 8 crc.toNat }
          xfer := some { dir := .toHost, source := .id, offset := 0, length := 6 }
          drq := true
          phase := .waitDrq } })

/-- R257, R258: READ_TRACK and WRITE_TRACK finish with status 0 where the drive is not ready and WRITE_TRACK with 0x40
where the image is write-protected; else they wait with the 4608 bytes of the head's track and the side. That
WRITE_TRACK tests ready before write protection is the model's choice (log 22). -/
def Obligations.TrackCommandsRule : Prop :=
  ∀ (s : State) (dir : XferDir) (y e sd x : Bool), ∃ t,
    exec (trackRow dir y e sd x) s = .next t ∧
    if s.inputs.fdcReady = false then finishedWith s.fdc 0x00 s t
    else if dir = .toDisk ∧ s.inputs.fdcWp = true then finishedWith s.fdc 0x40 s t
    else waitsWith s.fdc
      { dir := dir, source := .image, offset := (s.fdc.physTrack * 2 + s.fdc.side.toNat) * 4608, length := 4608 } s t

/-- R260: an acknowledgment outside WAIT_DRQ changes nothing; in WAIT_DRQ a multi-sector Type II command goes on to the
next sector, in the direction of bit 5 of `cmd`, and any other command finishes with status 0. -/
def Obligations.DrqAckRule : Prop :=
  ∀ (s : State) (rest : List Op), s.pending = .fdcDrqAck :: rest →
    let s0 := { s with pending := rest, returned := none }
    (s.fdc.phase ≠ .waitDrq → step s = .next s0) ∧
    (s.fdc.phase = .waitDrq → ∃ t, step s = .next t ∧
      if s.fdc.cmdType = .typeII ∧ s.fdc.multi = true then
        sectorStarted (if s.fdc.cmd.getLsbD 5 then .toDisk else .toHost)
          { s.fdc with drq := false, xfer := none, sector := BitVec.ofNat 8 (s.fdc.sector.toNat + 1) } s0 t
      else finishedWith s.fdc 0x00 s0 t)

/-- R261: a data-late event in WAIT_DRQ finishes the command with status bit 2; elsewhere it changes nothing. From a state
that meets the controller's invariants the command is of Type II or III, so the bit is LOST_DATA and not TK_0, and a
status read that follows shows it set. -/
def Obligations.DataLateRule : Prop :=
  ∀ (s : State) (rest : List Op), s.pending = .fdcDataLate :: rest →
    let s0 := { s with pending := rest, returned := none }
    (s.fdc.phase ≠ .waitDrq → step s = .next s0) ∧
    (s.fdc.phase = .waitDrq → ∃ t, step s = .next t ∧ finishedWith s.fdc 0x04 s0 t ∧
      (s.fdc.inv s.params.fdcLatency →
        (t.fdc.cmdType = .typeII ∨ t.fdc.cmdType = .typeIII) ∧
        ∀ sz, ∃ (u : State) (st : Byte),
          exec (.fdcRdStatus sz) t = .next u ∧ answers u sz st.toNat ∧ st.getLsbD 2 = true))

/-- R235, R243, R244: a class I to III command byte written with BUSY clear runs at the FDC_LATENCY-th FDC tick after it,
as `exec` of the command the byte decodes to (that `exec` of the row is its execution is log 8), on the state the
acceptance left. -/
def Obligations.FdcCommandRunsAfterItsLatency : Prop :=
  ∀ (s t0 : State) (b : Byte) (i : Instr) (rest : List Op),
    s.fdc.status.getLsbD 0 = false → b.toNat / 16 ≠ 0xD → decode (.fdcCmd b) = .instr i →
    s.pending = .access (.bus .fdc 0x80 .w8 (b.setWidth 32)) ::
      (List.replicate s.params.fdcLatency (.service .fdc) ++ rest) →
    exec (.fdcWrCmd .w8 (b.setWidth 32)) s = .next t0 →
    Sys2Proof.core.run (s.params.fdcLatency + 1) s =
      exec i { t0 with pending := rest, returned := none, fdc := { t0.fdc with phase := .exec 1 } }

/-- R35, R34, R244, R261: every step keeps the floppy controller's invariants. -/
def Obligations.StepKeepsFdcInvariants : Prop :=
  ∀ (s t : State), s.fdc.inv s.params.fdcLatency → step s = .next t → t.fdc.inv t.params.fdcLatency

/-! ## NVRAM -/

/-- R290, R294: an allocated, in-range read returns the bytes big-endian and changes nothing. -/
def Obligations.NvReadReturnsBigEndian : Prop :=
  ∀ (s : State) (off : Nat) (sz : AccSize), s.nv.allocated = true → off + bytesOf sz ≤ s.params.nvramSize →
    ∃ t, exec (.nvRd off sz) s = .next t ∧ t = { s with returned := t.returned } ∧
      answers t sz (bigEndian s.nv.bytes off (bytesOf sz))

/-- R290, R295: an allocated, in-range write stores the value's bytes big-endian, the most significant at the offset; every
other byte reads as before, and nothing else changes. -/
def Obligations.NvWriteStoresBigEndian : Prop :=
  ∀ (s : State) (off : Nat) (sz : AccSize) (v : Word), s.nv.bytes.wf → s.nv.allocated = true →
    off + bytesOf sz ≤ s.params.nvramSize →
    ∃ t, exec (.nvWr off sz v) s = .next t ∧ t = { s with nv := { s.nv with bytes := t.nv.bytes } } ∧
      (∀ j, j < bytesOf sz →
        (Memory.read t.nv.bytes (off + j)).toNat = v.toNat / 256 ^ (bytesOf sz - 1 - j) % 256) ∧
      ∀ x, x < off ∨ off + bytesOf sz ≤ x → Memory.read t.nv.bytes x = Memory.read s.nv.bytes x

/-- R292, R293, R311: an NVRAM access before allocation, a load or a save among them, faults with NV_UNALLOCATED, and an
access past the end with NV_RANGE, in that order. -/
def Obligations.NvAccessFaults : Prop :=
  ∀ (s : State) (off : Nat) (sz : AccSize) (v : Word),
    (s.nv.allocated = false →
      exec (.nvRd off sz) s = .fault .nvUnallocated ∧ exec (.nvWr off sz v) s = .fault .nvUnallocated ∧
      ∀ rest, (s.pending = .nvSave :: rest → step s = .fault .nvUnallocated) ∧
        ∀ image, s.pending = .nvLoad image :: rest → step s = .fault .nvUnallocated) ∧
    (s.nv.allocated = true → s.params.nvramSize < off + bytesOf sz →
      exec (.nvRd off sz) s = .fault .nvRange ∧ exec (.nvWr off sz v) s = .fault .nvRange)

/-- E7 for every value, size and offset: a write and then a read of the same bytes returns the value's low bits. -/
def Obligations.NvWriteThenReadReturnsTheValue : Prop :=
  ∀ (s t u : State) (off : Nat) (sz : AccSize) (v : Word), s.nv.bytes.wf →
    exec (.nvWr off sz v) s = .next t → exec (.nvRd off sz) t = .next u → answers u sz (v.toNat % 2 ^ sz.bits)

/-- R297, R298: a load of an image of the store's length and then a save returns the image; a load of any other length
faults with NV_IMAGE_SIZE. -/
def Obligations.LoadThenSaveReturnsTheImage : Prop :=
  ∀ (s : State) (image : List Byte) (rest : List Op), s.nv.allocated = true →
    s.pending = .nvLoad image :: .nvSave :: rest →
    (image.length = s.params.nvramSize →
      ∃ t, Sys2Proof.core.run 2 s = .next t ∧ t.returned = some (.image image) ∧
        t = { s with nv := t.nv, returned := t.returned, pending := rest }) ∧
    (image.length ≠ s.params.nvramSize → step s = .fault .nvImageSize)

/-- R36 and log 12: every step keeps the store's contents in canonical form and inside the store, and no step takes the
allocation of the store back. -/
def Obligations.StepKeepsMemoryCanonical : Prop :=
  ∀ (s t : State), s.memInv → step s = .next t → t.memInv ∧ (s.nv.allocated = true → t.nv.allocated = true)

/-! ## Host inputs, ticks and reset -/

/-- R318: the order of two devices' service ticks does not matter: both orders end in one state, the history included,
because only the UART's tick emits events (R146, R161, R212, R242). R127, R296: a tick of the CSR or of the NVRAM
changes nothing. -/
def Obligations.TickOrderDoesNotMatter : Prop :=
  ∀ (s : State) (d e : Device) (rest : List Op),
    (∃ t,
      Sys2Proof.core.run 2 { s with pending := .service d :: .service e :: rest } = .next t ∧
      Sys2Proof.core.run 2 { s with pending := .service e :: .service d :: rest } = .next t) ∧
    (d = .csr ∨ d = .nv → s.pending = .service d :: rest → step s = .next { s with pending := rest, returned := none })

/-- R262, R102: the host's inputs change `fdc_ready` and `fdc_wp`, or the next `KbdPoll()` answer, and nothing else. -/
def Obligations.HostInputsChangeOnlyInputs : Prop :=
  ∀ (s : State) (rest : List Op) (ready wp : Bool) (c : Option Byte),
    (s.pending = .input ready wp :: rest →
      step s = .next { s with pending := rest, returned := none,
                              inputs := { s.inputs with fdcReady := ready, fdcWp := wp } }) ∧
    (s.pending = .kbd c :: rest →
      step s = .next { s with pending := rest, returned := none, inputs := { s.inputs with kbd := c } })

/-- R340 to R344: each reset writes its own device's reset values and nothing else, where the store can be allocated; the
first reset of a store that cannot be is the fault NV_ALLOC (R299), on which a host stops too (log 11). -/
def Obligations.ResetWritesOwnDevice : Prop :=
  ∀ (s : State) (d : Device) (rest : List Op), s.pending = .reset d :: rest →
    ((d = .nv → s.nv.allocated = true ∨ s.inputs.storeAvailable = true) →
      step s = .next { resetOf d s with pending := rest, returned := none }) ∧
    (d = .nv → s.nv.allocated = false → s.inputs.storeAvailable = false →
      step s = .fault .nvAlloc ∧ stepOn s = .fault .nvAlloc)

/-- R346: two resets of a device leave what one does. -/
def Obligations.ResetIsIdempotent : Prop :=
  ∀ (s t u : State) (d : Device) (rest : List Op), s.pending = .reset d :: .reset d :: rest →
    step s = .next t → step t = .next u → { t with pending := rest } = u

/-- R347, R40: from every state where the store is allocated or can be, the five resets in the order of R347 leave every
device at its reset values; the NVRAM is filled with 0x5A if it was not allocated, else its bytes are kept. From power-on
(R36), whatever the devices hold there (log 23), they lead to the reset state itself. -/
def Obligations.SystemResetGivesResetState : Prop :=
  (∀ (s : State) (rest : List Op), s.pending = systemReset ++ rest →
    s.nv.allocated = true ∨ s.inputs.storeAvailable = true →
    ∃ t, Sys2Proof.core.run 5 s = .next t ∧
      t = { State.resetWith s.params with
        nv := t.nv, inputs := s.inputs, history := s.history, pending := rest } ∧
      t.nv.allocated = true ∧
      (s.nv.allocated = false → ∀ x, Memory.read t.nv.bytes x = 0x5A) ∧
      (s.nv.allocated = true → t.nv = s.nv)) ∧
  ∀ (p : Config.Params) (csr : Csr) (tmr : Tmr) (uart : Uart) (fdc : Fdc),
    (State.powerOn p csr tmr uart fdc).nv.allocated = false ∧
    Sys2Proof.core.run 5 { State.powerOn p csr tmr uart fdc with pending := systemReset } = .next (State.resetWith p)

/-- R40: the state after reset meets every invariant stated here, whatever the parameters. -/
def Obligations.ResetMeetsTheInvariants : Prop :=
  ∀ p : Config.Params,
    let s := State.resetWith p
    s.uart.txInv ∧ s.uart.rxInv ∧ s.uart.unsetInv ∧ (∀ c, (chan s.tmr c).inv) ∧ s.fdc.inv p.fdcLatency ∧ s.memInv
end

