-- ==== Sys2Proof/Laws/Bits.lean ====
section
/-! SUPPORT. What `setBit` and the operand forms do, bit by bit and as numbers. -/

namespace Sys2Proof.Machine

/-- `setBit` writes bit i and no other (R7, R8). -/
theorem setBit_getLsbD {n : Nat} (v : BitVec n) (i : Nat) (b : Bool) (j : Nat) :
    (setBit v i b).getLsbD j = if j < n ∧ i = j then b else v.getLsbD j := by
  unfold setBit
  cases b <;> simp [BitVec.getLsbD_twoPow] <;> by_cases h : i = j <;> by_cases hn : j < n <;>
    simp [h, hn] <;> exact BitVec.getLsbD_of_ge v j (by omega)

/-- The written bit reads back. -/
theorem setBit_same {n : Nat} (v : BitVec n) (i : Nat) (b : Bool) (h : i < n) :
    (setBit v i b).getLsbD i = b := by
  rw [setBit_getLsbD, if_pos ⟨h, rfl⟩]

/-- Every other bit is as it was. -/
theorem setBit_other {n : Nat} (v : BitVec n) (i j : Nat) (b : Bool) (h : i ≠ j) :
    (setBit v i b).getLsbD j = v.getLsbD j := by
  rw [setBit_getLsbD, if_neg fun c => h c.2]

/-- `keep` takes the value mod 2^size (R9). -/
theorem keep_toNat (sz : AccSize) (v : Word) : (sz.keep v).toNat = v.toNat % 2 ^ sz.bits := by
  cases sz <;> simp [AccSize.keep, AccSize.bits] <;> omega

/-- A value that fits its size is delivered as it is (R9). -/
theorem keep_of_fits (sz : AccSize) (v : Word) (h : valueFits sz v = true) : sz.keep v = v := by
  apply BitVec.eq_of_toNat_eq
  rw [keep_toNat]
  exact Nat.mod_eq_of_lt (by simpa [valueFits] using h)

/-- What an access delivers fits its size. -/
theorem keep_fits (sz : AccSize) (v : Word) : valueFits sz (sz.keep v) = true := by
  simp only [valueFits, keep_toNat, decide_eq_true_eq]
  exact Nat.mod_lt _ (Nat.two_pow_pos _)

/-- The size never changes the byte a write stores (R75). -/
theorem writtenByte_eq (sz : AccSize) (v : Word) : writtenByte sz v = v.setWidth 8 := by
  apply BitVec.eq_of_toNat_eq
  cases sz <;> simp [writtenByte, AccSize.keep]

/-- A divider write stores the delivered value mod 2^16 (R143). -/
theorem writtenHalf_toNat (sz : AccSize) (v : Word) :
    (writtenHalf sz v).toNat = (v.toNat % 2 ^ sz.bits) % 65536 := by
  simp [writtenHalf, keep_toNat]

end Sys2Proof.Machine
end

