-- ==== Sys2Proof/Laws/Memory.lean ====
section
/-! SUPPORT. The NVRAM's list of bytes: read after write, the canonical form, big-endian accesses, images. -/

namespace Sys2Proof.Machine

/-- The empty list is in canonical form. -/
theorem Memory.wf_nil : Memory.wf [] := by
  refine ⟨List.Pairwise.nil, ?_⟩
  intro c hc
  simp at hc

theorem Memory.wf_tail {c : Host.Cell} {m : Memory} (h : Memory.wf (c :: m)) : Memory.wf m :=
  ⟨(List.pairwise_cons.1 h.1).2, fun d hd => h.2 d (List.mem_cons_of_mem _ hd)⟩

theorem Memory.wf_cons {c : Host.Cell} {m : Memory} (hm : Memory.wf m) (hc : c.2 ≠ Config.nvramFill)
    (hlt : ∀ d ∈ m, c.1 < d.1) : Memory.wf (c :: m) :=
  ⟨List.pairwise_cons.2 ⟨hlt, hm.1⟩, by
    intro d hd
    rcases List.mem_cons.1 hd with rfl | h
    · exact hc
    · exact hm.2 d h⟩

/-- An offset below every listed one reads `NVRAM_FILL`. -/
theorem Memory.read_of_below (m : Memory) (a : Nat) (h : ∀ c ∈ m, a < c.1) :
    Memory.read m a = Config.nvramFill := by
  induction m with
  | nil => rfl
  | cons c m ih =>
    obtain ⟨b, v⟩ := c
    have hb : a < b := h (b, v) (List.mem_cons_self ..)
    have hne : a ≠ b := by omega
    simp only [Memory.read, hne, if_false]
    exact ih fun d hd => h d (List.mem_cons_of_mem _ hd)

/-- A byte stored at offset a is listed nowhere else, and whatever is listed was there or is it. -/
theorem Memory.mem_write (m : Memory) (a : Nat) (v : Byte) (c : Host.Cell) (h : c ∈ Memory.write m a v) :
    c ∈ m ∨ c = (a, v) := by
  induction m with
  | nil =>
    by_cases hv : v = Config.nvramFill
    · simp [Memory.write, hv] at h
    · simpa [Memory.write, hv] using h
  | cons d m ih =>
    obtain ⟨b, w⟩ := d
    simp only [Memory.write] at h
    split at h
    · split at h
      · exact .inl h
      · rcases List.mem_cons.1 h with rfl | h
        · exact .inr rfl
        · exact .inl h
    · split at h
      · split at h
        · exact .inl (List.mem_cons_of_mem _ h)
        · rcases List.mem_cons.1 h with rfl | h
          · exact .inr rfl
          · exact .inl (List.mem_cons_of_mem _ h)
      · rcases List.mem_cons.1 h with rfl | h
        · exact .inl (List.mem_cons_self ..)
        · rcases ih h with h | h
          · exact .inl (List.mem_cons_of_mem _ h)
          · exact .inr h

/-- A write keeps the canonical form. -/
theorem Memory.write_wf (m : Memory) (a : Nat) (v : Byte) (hm : m.wf) : (Memory.write m a v).wf := by
  induction m with
  | nil =>
    by_cases hv : v = Config.nvramFill
    · simpa [Memory.write, hv] using Memory.wf_nil
    · simpa [Memory.write, hv] using Memory.wf_cons Memory.wf_nil hv (by simp)
  | cons d m ih =>
    obtain ⟨b, w⟩ := d
    have htail := Memory.wf_tail hm
    have hbm : ∀ c ∈ m, b < c.1 := (List.pairwise_cons.1 hm.1).1
    have hw : w ≠ Config.nvramFill := hm.2 (b, w) (List.mem_cons_self ..)
    simp only [Memory.write]
    split
    · split
      · exact hm
      · rename_i hab hv
        refine Memory.wf_cons hm hv fun c hc => ?_
        rcases List.mem_cons.1 hc with rfl | hc
        · exact hab
        · exact Nat.lt_trans hab (hbm c hc)
    · split
      · split
        · exact htail
        · rename_i heq hv
          subst heq
          exact Memory.wf_cons htail hv hbm
      · rename_i hlt hne
        refine Memory.wf_cons (ih htail) hw fun c hc => ?_
        rcases Memory.mem_write m a v c hc with h | rfl
        · exact hbm c h
        · show b < a
          omega

/-- Read after write: the byte stored, and every other byte as it was. -/
theorem Memory.read_write (m : Memory) (a x : Nat) (v : Byte) (hm : m.wf) :
    Memory.read (Memory.write m a v) x = if x = a then v else Memory.read m x := by
  induction m with
  | nil =>
    by_cases hv : v = Config.nvramFill <;> by_cases hx : x = a <;> simp [Memory.write, Memory.read, hv, hx]
  | cons d m ih =>
    obtain ⟨b, w⟩ := d
    have hbm : ∀ c ∈ m, b < c.1 := (List.pairwise_cons.1 hm.1).1
    have below : ∀ y, y ≤ b → Memory.read m y = Config.nvramFill := fun y hy =>
      Memory.read_of_below m y fun c hc => Nat.lt_of_le_of_lt hy (hbm c hc)
    simp only [Memory.write]
    split
    · rename_i hab
      split
      · rename_i hv
        by_cases hx : x = a
        · subst hx
          have hne : x ≠ b := by omega
          simp [Memory.read, hne, below x (by omega), hv]
        · simp [hx]
      · by_cases hx : x = a <;> simp [Memory.read, hx]
    · split
      · rename_i heq
        subst heq
        split
        · rename_i hv
          by_cases hx : x = a
          · subst hx
            simp [below x (Nat.le_refl x), hv]
          · simp [Memory.read, hx]
        · by_cases hx : x = a <;> simp [Memory.read, hx]
      · rename_i hlt hne
        by_cases hxb : x = b
        · subst hxb
          have hxa : x ≠ a := by omega
          simp [Memory.read, hxa]
        · simp [Memory.read, hxb, ih (Memory.wf_tail hm)]

/-- A multi-byte write keeps the canonical form. -/
theorem nvWrite_wf (m : Memory) (o n : Nat) (v : Word) (hm : m.wf) : (nvWrite m o n v).wf := by
  induction n generalizing m v with
  | zero => exact hm
  | succ n ih => exact ih _ _ (Memory.write_wf m (o + n) _ hm)

/-- Whatever a multi-byte write lists was there or lies in the bytes it covers. -/
theorem nvWrite_mem (m : Memory) (o n : Nat) (v : Word) (c : Host.Cell) (h : c ∈ nvWrite m o n v) :
    c ∈ m ∨ (o ≤ c.1 ∧ c.1 < o + n) := by
  induction n generalizing m v with
  | zero => exact .inl h
  | succ n ih =>
    rcases ih _ _ h with h | h
    · rcases Memory.mem_write m _ _ c h with h | rfl
      · exact .inl h
      · exact .inr ⟨Nat.le_add_right .., by simp⟩
    · exact .inr ⟨h.1, by omega⟩

/-- A multi-byte write puts byte n−1−j of the value at o+j, big-endian, and changes no other byte (R290). -/
theorem read_nvWrite (m : Memory) (o n : Nat) (v : Word) (x : Nat) (hm : m.wf) :
    Memory.read (nvWrite m o n v) x =
      if o ≤ x ∧ x < o + n then (v >>> (8 * (o + n - 1 - x))).setWidth 8 else Memory.read m x := by
  induction n generalizing m v with
  | zero => simp [nvWrite]
  | succ n ih =>
    rw [nvWrite, ih _ _ (Memory.write_wf m _ _ hm), Memory.read_write m _ _ _ hm]
    by_cases h1 : o ≤ x ∧ x < o + n
    · have h2 : o ≤ x ∧ x < o + (n + 1) := ⟨h1.1, by omega⟩
      have h3 : 8 + 8 * (o + n - 1 - x) = 8 * (o + (n + 1) - 1 - x) := by omega
      rw [if_pos h1, if_pos h2, ← BitVec.shiftRight_add, h3]
    · by_cases h4 : x = o + n
      · subst h4
        have h5 : o + (n + 1) - 1 - (o + n) = 0 := by omega
        rw [if_neg h1, if_pos rfl, if_pos (by omega), h5]
        simp
      · rw [if_neg h1, if_neg h4, if_neg (by omega)]

/-- An image's contents are in canonical form and lie at or above its first offset. -/
theorem Memory.ofImage_wf (o : Nat) (bs : List Byte) :
    (Memory.ofImage o bs).wf ∧ ∀ c ∈ Memory.ofImage o bs, o ≤ c.1 ∧ c.1 < o + bs.length := by
  induction bs generalizing o with
  | nil => exact ⟨Memory.wf_nil, by simp [Memory.ofImage]⟩
  | cons b bs ih =>
    obtain ⟨hw, hb⟩ := ih (o + 1)
    have hb' : ∀ c ∈ Memory.ofImage (o + 1) bs, o ≤ c.1 ∧ c.1 < o + (b :: bs).length := fun c hc => by
      have := hb c hc
      simp only [List.length_cons]
      omega
    simp only [Memory.ofImage]
    split
    · exact ⟨hw, hb'⟩
    · rename_i hne
      refine ⟨Memory.wf_cons hw hne fun c hc => by have := hb c hc; show o < c.1; omega, fun c hc => ?_⟩
      rcases List.mem_cons.1 hc with rfl | hc
      · simp
      · exact hb' c hc

/-- Byte j of an image reads back at its offset (R297). -/
theorem Memory.read_ofImage (o : Nat) (bs : List Byte) (j : Nat) (h : j < bs.length) :
    Memory.read (Memory.ofImage o bs) (o + j) = bs[j] := by
  induction bs generalizing o j with
  | nil => simp at h
  | cons b bs ih =>
    have hge := (Memory.ofImage_wf (o + 1) bs).2
    simp only [Memory.ofImage]
    cases j with
    | zero =>
      split
      · rename_i hb
        rw [Memory.read_of_below _ _ fun c hc => by have := hge c hc; omega]
        simp [hb]
      · simp [Memory.read]
    | succ j =>
      have hj : j < bs.length := by simpa using h
      have := ih (o + 1) j hj
      rw [show o + 1 + j = o + (j + 1) by omega] at this
      split
      · simpa using this
      · have hne : o + (j + 1) ≠ o := by omega
        simp [Memory.read, this]

end Sys2Proof.Machine
end

