-- ==== Sys2Proof/Laws/State.lean ====
section
/-! SUPPORT. For each update of the state, what each field holds after it: all true by unfolding the update. -/

namespace Sys2Proof.Machine

variable (s : State)

/-! ## answer -/

@[simp] theorem State.answer_csr (r : Returned) : (s.answer r).csr = s.csr := rfl
@[simp] theorem State.answer_tmr (r : Returned) : (s.answer r).tmr = s.tmr := rfl
@[simp] theorem State.answer_uart (r : Returned) : (s.answer r).uart = s.uart := rfl
@[simp] theorem State.answer_fdc (r : Returned) : (s.answer r).fdc = s.fdc := rfl
@[simp] theorem State.answer_nv (r : Returned) : (s.answer r).nv = s.nv := rfl
@[simp] theorem State.answer_params (r : Returned) : (s.answer r).params = s.params := rfl
@[simp] theorem State.answer_inputs (r : Returned) : (s.answer r).inputs = s.inputs := rfl
@[simp] theorem State.answer_history (r : Returned) : (s.answer r).history = s.history := rfl
@[simp] theorem State.answer_returned (r : Returned) : (s.answer r).returned = some r := rfl
@[simp] theorem State.answer_pending (r : Returned) : (s.answer r).pending = s.pending := rfl

/-! ## answerRead -/

@[simp] theorem State.answerRead_csr {n : Nat} (sz : AccSize) (v : BitVec n) : (s.answerRead sz v).csr = s.csr := rfl
@[simp] theorem State.answerRead_tmr {n : Nat} (sz : AccSize) (v : BitVec n) : (s.answerRead sz v).tmr = s.tmr := rfl
@[simp] theorem State.answerRead_uart {n : Nat} (sz : AccSize) (v : BitVec n) : (s.answerRead sz v).uart = s.uart := rfl
@[simp] theorem State.answerRead_fdc {n : Nat} (sz : AccSize) (v : BitVec n) : (s.answerRead sz v).fdc = s.fdc := rfl
@[simp] theorem State.answerRead_nv {n : Nat} (sz : AccSize) (v : BitVec n) : (s.answerRead sz v).nv = s.nv := rfl
@[simp] theorem State.answerRead_params {n : Nat} (sz : AccSize) (v : BitVec n) : (s.answerRead sz v).params = s.params := rfl
@[simp] theorem State.answerRead_inputs {n : Nat} (sz : AccSize) (v : BitVec n) : (s.answerRead sz v).inputs = s.inputs := rfl
@[simp] theorem State.answerRead_history {n : Nat} (sz : AccSize) (v : BitVec n) : (s.answerRead sz v).history = s.history := rfl
@[simp] theorem State.answerRead_returned {n : Nat} (sz : AccSize) (v : BitVec n) : (s.answerRead sz v).returned = some (.bus (readData sz v)) := rfl
@[simp] theorem State.answerRead_pending {n : Nat} (sz : AccSize) (v : BitVec n) : (s.answerRead sz v).pending = s.pending := rfl

/-! ## emit -/

@[simp] theorem State.emit_csr (e : OutEvent) : (s.emit e).csr = s.csr := rfl
@[simp] theorem State.emit_tmr (e : OutEvent) : (s.emit e).tmr = s.tmr := rfl
@[simp] theorem State.emit_uart (e : OutEvent) : (s.emit e).uart = s.uart := rfl
@[simp] theorem State.emit_fdc (e : OutEvent) : (s.emit e).fdc = s.fdc := rfl
@[simp] theorem State.emit_nv (e : OutEvent) : (s.emit e).nv = s.nv := rfl
@[simp] theorem State.emit_params (e : OutEvent) : (s.emit e).params = s.params := rfl
@[simp] theorem State.emit_inputs (e : OutEvent) : (s.emit e).inputs = s.inputs := rfl
@[simp] theorem State.emit_history (e : OutEvent) : (s.emit e).history = s.history ++ [e] := rfl
@[simp] theorem State.emit_returned (e : OutEvent) : (s.emit e).returned = s.returned := rfl
@[simp] theorem State.emit_pending (e : OutEvent) : (s.emit e).pending = s.pending := rfl

/-! ## csrSet -/

@[simp] theorem State.csrSet_csr (k : Nat) : (s.csrSet k).csr = ⟨setBit s.csr.bits k true⟩ := rfl
@[simp] theorem State.csrSet_tmr (k : Nat) : (s.csrSet k).tmr = s.tmr := rfl
@[simp] theorem State.csrSet_uart (k : Nat) : (s.csrSet k).uart = s.uart := rfl
@[simp] theorem State.csrSet_fdc (k : Nat) : (s.csrSet k).fdc = s.fdc := rfl
@[simp] theorem State.csrSet_nv (k : Nat) : (s.csrSet k).nv = s.nv := rfl
@[simp] theorem State.csrSet_params (k : Nat) : (s.csrSet k).params = s.params := rfl
@[simp] theorem State.csrSet_inputs (k : Nat) : (s.csrSet k).inputs = s.inputs := rfl
@[simp] theorem State.csrSet_history (k : Nat) : (s.csrSet k).history = s.history := rfl
@[simp] theorem State.csrSet_returned (k : Nat) : (s.csrSet k).returned = s.returned := rfl
@[simp] theorem State.csrSet_pending (k : Nat) : (s.csrSet k).pending = s.pending := rfl

/-! ## csrClear -/

@[simp] theorem State.csrClear_csr (k : Nat) : (s.csrClear k).csr = ⟨setBit s.csr.bits k false⟩ := rfl
@[simp] theorem State.csrClear_tmr (k : Nat) : (s.csrClear k).tmr = s.tmr := rfl
@[simp] theorem State.csrClear_uart (k : Nat) : (s.csrClear k).uart = s.uart := rfl
@[simp] theorem State.csrClear_fdc (k : Nat) : (s.csrClear k).fdc = s.fdc := rfl
@[simp] theorem State.csrClear_nv (k : Nat) : (s.csrClear k).nv = s.nv := rfl
@[simp] theorem State.csrClear_params (k : Nat) : (s.csrClear k).params = s.params := rfl
@[simp] theorem State.csrClear_inputs (k : Nat) : (s.csrClear k).inputs = s.inputs := rfl
@[simp] theorem State.csrClear_history (k : Nat) : (s.csrClear k).history = s.history := rfl
@[simp] theorem State.csrClear_returned (k : Nat) : (s.csrClear k).returned = s.returned := rfl
@[simp] theorem State.csrClear_pending (k : Nat) : (s.csrClear k).pending = s.pending := rfl

/-! ## withUart -/

@[simp] theorem State.withUart_csr (u : Uart) : (s.withUart u).csr = s.csr := rfl
@[simp] theorem State.withUart_tmr (u : Uart) : (s.withUart u).tmr = s.tmr := rfl
@[simp] theorem State.withUart_uart (u : Uart) : (s.withUart u).uart = u := rfl
@[simp] theorem State.withUart_fdc (u : Uart) : (s.withUart u).fdc = s.fdc := rfl
@[simp] theorem State.withUart_nv (u : Uart) : (s.withUart u).nv = s.nv := rfl
@[simp] theorem State.withUart_params (u : Uart) : (s.withUart u).params = s.params := rfl
@[simp] theorem State.withUart_inputs (u : Uart) : (s.withUart u).inputs = s.inputs := rfl
@[simp] theorem State.withUart_history (u : Uart) : (s.withUart u).history = s.history := rfl
@[simp] theorem State.withUart_returned (u : Uart) : (s.withUart u).returned = s.returned := rfl
@[simp] theorem State.withUart_pending (u : Uart) : (s.withUart u).pending = s.pending := rfl

/-! ## withFdc -/

@[simp] theorem State.withFdc_csr (f : Fdc) : (s.withFdc f).csr = s.csr := rfl
@[simp] theorem State.withFdc_tmr (f : Fdc) : (s.withFdc f).tmr = s.tmr := rfl
@[simp] theorem State.withFdc_uart (f : Fdc) : (s.withFdc f).uart = s.uart := rfl
@[simp] theorem State.withFdc_fdc (f : Fdc) : (s.withFdc f).fdc = f := rfl
@[simp] theorem State.withFdc_nv (f : Fdc) : (s.withFdc f).nv = s.nv := rfl
@[simp] theorem State.withFdc_params (f : Fdc) : (s.withFdc f).params = s.params := rfl
@[simp] theorem State.withFdc_inputs (f : Fdc) : (s.withFdc f).inputs = s.inputs := rfl
@[simp] theorem State.withFdc_history (f : Fdc) : (s.withFdc f).history = s.history := rfl
@[simp] theorem State.withFdc_returned (f : Fdc) : (s.withFdc f).returned = s.returned := rfl
@[simp] theorem State.withFdc_pending (f : Fdc) : (s.withFdc f).pending = s.pending := rfl

/-! ## withTmr -/

@[simp] theorem State.withTmr_csr (t : Tmr) : (s.withTmr t).csr = s.csr := rfl
@[simp] theorem State.withTmr_tmr (t : Tmr) : (s.withTmr t).tmr = t := rfl
@[simp] theorem State.withTmr_uart (t : Tmr) : (s.withTmr t).uart = s.uart := rfl
@[simp] theorem State.withTmr_fdc (t : Tmr) : (s.withTmr t).fdc = s.fdc := rfl
@[simp] theorem State.withTmr_nv (t : Tmr) : (s.withTmr t).nv = s.nv := rfl
@[simp] theorem State.withTmr_params (t : Tmr) : (s.withTmr t).params = s.params := rfl
@[simp] theorem State.withTmr_inputs (t : Tmr) : (s.withTmr t).inputs = s.inputs := rfl
@[simp] theorem State.withTmr_history (t : Tmr) : (s.withTmr t).history = s.history := rfl
@[simp] theorem State.withTmr_returned (t : Tmr) : (s.withTmr t).returned = s.returned := rfl
@[simp] theorem State.withTmr_pending (t : Tmr) : (s.withTmr t).pending = s.pending := rfl

/-! ## withBytes -/

@[simp] theorem State.withBytes_csr (m : Memory) : (s.withBytes m).csr = s.csr := rfl
@[simp] theorem State.withBytes_tmr (m : Memory) : (s.withBytes m).tmr = s.tmr := rfl
@[simp] theorem State.withBytes_uart (m : Memory) : (s.withBytes m).uart = s.uart := rfl
@[simp] theorem State.withBytes_fdc (m : Memory) : (s.withBytes m).fdc = s.fdc := rfl
@[simp] theorem State.withBytes_nv (m : Memory) : (s.withBytes m).nv = ⟨m, s.nv.allocated⟩ := rfl
@[simp] theorem State.withBytes_params (m : Memory) : (s.withBytes m).params = s.params := rfl
@[simp] theorem State.withBytes_inputs (m : Memory) : (s.withBytes m).inputs = s.inputs := rfl
@[simp] theorem State.withBytes_history (m : Memory) : (s.withBytes m).history = s.history := rfl
@[simp] theorem State.withBytes_returned (m : Memory) : (s.withBytes m).returned = s.returned := rfl
@[simp] theorem State.withBytes_pending (m : Memory) : (s.withBytes m).pending = s.pending := rfl

/-! ## afterDraw -/

@[simp] theorem State.afterDraw_csr : (s.afterDraw).csr = s.csr := rfl
@[simp] theorem State.afterDraw_tmr : (s.afterDraw).tmr = s.tmr := rfl
@[simp] theorem State.afterDraw_uart : (s.afterDraw).uart = s.uart := rfl
@[simp] theorem State.afterDraw_fdc : (s.afterDraw).fdc = s.fdc := rfl
@[simp] theorem State.afterDraw_nv : (s.afterDraw).nv = s.nv := rfl
@[simp] theorem State.afterDraw_params : (s.afterDraw).params = s.params := rfl
@[simp] theorem State.afterDraw_history : (s.afterDraw).history = s.history := rfl
@[simp] theorem State.afterDraw_returned : (s.afterDraw).returned = s.returned := rfl
@[simp] theorem State.afterDraw_pending : (s.afterDraw).pending = s.pending := rfl

/-! ## start -/

@[simp] theorem State.start_csr (rest : List Op) : (s.start rest).csr = s.csr := rfl
@[simp] theorem State.start_tmr (rest : List Op) : (s.start rest).tmr = s.tmr := rfl
@[simp] theorem State.start_uart (rest : List Op) : (s.start rest).uart = s.uart := rfl
@[simp] theorem State.start_fdc (rest : List Op) : (s.start rest).fdc = s.fdc := rfl
@[simp] theorem State.start_nv (rest : List Op) : (s.start rest).nv = s.nv := rfl
@[simp] theorem State.start_params (rest : List Op) : (s.start rest).params = s.params := rfl
@[simp] theorem State.start_inputs (rest : List Op) : (s.start rest).inputs = s.inputs := rfl
@[simp] theorem State.start_history (rest : List Op) : (s.start rest).history = s.history := rfl
@[simp] theorem State.start_returned (rest : List Op) : (s.start rest).returned = none := rfl
@[simp] theorem State.start_pending (rest : List Op) : (s.start rest).pending = rest := rfl

@[simp] theorem State.afterDraw_fdcReady : s.afterDraw.inputs.fdcReady = s.inputs.fdcReady := rfl
@[simp] theorem State.afterDraw_fdcWp : s.afterDraw.inputs.fdcWp = s.inputs.fdcWp := rfl
@[simp] theorem State.afterDraw_storeAvailable :
    s.afterDraw.inputs.storeAvailable = s.inputs.storeAvailable := rfl
@[simp] theorem State.afterDraw_kbd : s.afterDraw.inputs.kbd = s.inputs.kbd := rfl
@[simp] theorem State.afterDraw_drawCount : s.afterDraw.inputs.drawCount = s.inputs.drawCount + 1 := rfl

/-! ## Power-on -/

@[simp] theorem State.powerOn_allocated (p : Config.Params) (c : Csr) (m : Tmr) (u : Uart) (f : Fdc) :
    (State.powerOn p c m u f).nv.allocated = false := rfl
@[simp] theorem State.powerOn_params (p : Config.Params) (c : Csr) (m : Tmr) (u : Uart) (f : Fdc) :
    (State.powerOn p c m u f).params = p := rfl
@[simp] theorem State.powerOn_inputs (p : Config.Params) (c : Csr) (m : Tmr) (u : Uart) (f : Fdc) :
    (State.powerOn p c m u f).inputs = .initial := rfl

/-! ## Ports of the UART -/

@[simp] theorem Uart.port_setPort_same (u : Uart) (p : Port) (q : UartPort) : (u.setPort p q).port p = q := by
  cases p <;> rfl

@[simp] theorem Uart.port_setPort_other (u : Uart) (p r : Port) (q : UartPort) (h : r ≠ p) :
    (u.setPort p q).port r = u.port r := by
  cases p <;> cases r <;> first | rfl | exact absurd rfl h

@[simp] theorem Uart.setPort_istat (u : Uart) (p : Port) (q : UartPort) : (u.setPort p q).istat = u.istat := by
  cases p <;> rfl

@[simp] theorem Uart.setPort_imask (u : Uart) (p : Port) (q : UartPort) : (u.setPort p q).imask = u.imask := by
  cases p <;> rfl

@[simp] theorem Uart.setPort_acr (u : Uart) (p : Port) (q : UartPort) : (u.setPort p q).acr = u.acr := by
  cases p <;> rfl

@[simp] theorem Uart.setPort_counterSet (u : Uart) (p : Port) (q : UartPort) : (u.setPort p q).counterSet = u.counterSet := by
  cases p <;> rfl

@[simp] theorem Uart.setPort_counterValue (u : Uart) (p : Port) (q : UartPort) : (u.setPort p q).counterValue = u.counterValue := by
  cases p <;> rfl

@[simp] theorem Uart.setPort_counterEnabled (u : Uart) (p : Port) (q : UartPort) : (u.setPort p q).counterEnabled = u.counterEnabled := by
  cases p <;> rfl

@[simp] theorem Uart.setPort_a_a (u : Uart) (q : UartPort) : (u.setPort .a q).a = q := rfl
@[simp] theorem Uart.setPort_a_b (u : Uart) (q : UartPort) : (u.setPort .a q).b = u.b := rfl
@[simp] theorem Uart.port_a (u : Uart) : u.port .a = u.a := rfl
@[simp] theorem Uart.setPort_b_b (u : Uart) (q : UartPort) : (u.setPort .b q).b = q := rfl
@[simp] theorem Uart.setPort_b_a (u : Uart) (q : UartPort) : (u.setPort .b q).a = u.a := rfl
@[simp] theorem Uart.port_b (u : Uart) : u.port .b = u.b := rfl

end Sys2Proof.Machine
end

