-- ==== Sys2Proof/Laws/Ops.lean ====
section
/-! SUPPORT. For each shared operation, once, everything it does: the fields it leaves, and what it writes. -/

namespace Sys2Proof.Machine

/-! ## The UART interrupt (R161) -/

@[simp] theorem State.recompute_tmr (s : State) : (s.recompute).tmr = s.tmr := by
  unfold State.recompute; split <;> rfl
@[simp] theorem State.recompute_uart (s : State) : (s.recompute).uart = s.uart := by
  unfold State.recompute; split <;> rfl
@[simp] theorem State.recompute_fdc (s : State) : (s.recompute).fdc = s.fdc := by
  unfold State.recompute; split <;> rfl
@[simp] theorem State.recompute_nv (s : State) : (s.recompute).nv = s.nv := by
  unfold State.recompute; split <;> rfl
@[simp] theorem State.recompute_params (s : State) : (s.recompute).params = s.params := by
  unfold State.recompute; split <;> rfl
@[simp] theorem State.recompute_inputs (s : State) : (s.recompute).inputs = s.inputs := by
  unfold State.recompute; split <;> rfl
@[simp] theorem State.recompute_returned (s : State) : (s.recompute).returned = s.returned := by
  unfold State.recompute; split <;> rfl
@[simp] theorem State.recompute_pending (s : State) : (s.recompute).pending = s.pending := by
  unfold State.recompute; split <;> rfl

/-- After a recompute CSR cause 3 is the interrupt condition and no other cause has changed. -/
theorem State.recompute_csr (s : State) : s.recompute.csr = ⟨setBit s.csr.bits 3 s.uart.live⟩ := by
  unfold State.recompute
  split <;> rename_i h
  · rw [h]; rfl
  · rw [Bool.eq_false_iff.2 h]; rfl

/-- A recompute emits one `Irq` where the condition holds, and nothing else. -/
theorem State.recompute_history (s : State) :
    s.recompute.history =
      s.history ++ if s.uart.live then [.irq s.params.uartIrqVector s.params.uartIrqPriority] else [] := by
  unfold State.recompute
  split <;> rename_i h <;> simp

/-- The condition, as R27 writes it. -/
theorem Uart.live_iff (u : Uart) : u.live = true ↔ u.istat &&& u.imask ≠ 0 := by
  simp [Uart.live]

/-! ## The UART's procedures -/

@[simp] theorem updateTx_tmr (s : State) : (updateTx s).tmr = s.tmr := by
  unfold updateTx; simp
@[simp] theorem updateTx_uart (s : State) : (updateTx s).uart = s.uart.txStatus := by
  unfold updateTx; simp
@[simp] theorem updateTx_fdc (s : State) : (updateTx s).fdc = s.fdc := by
  unfold updateTx; simp
@[simp] theorem updateTx_nv (s : State) : (updateTx s).nv = s.nv := by
  unfold updateTx; simp
@[simp] theorem updateTx_params (s : State) : (updateTx s).params = s.params := by
  unfold updateTx; simp
@[simp] theorem updateTx_inputs (s : State) : (updateTx s).inputs = s.inputs := by
  unfold updateTx; simp
@[simp] theorem updateTx_returned (s : State) : (updateTx s).returned = s.returned := by
  unfold updateTx; simp
@[simp] theorem updateTx_pending (s : State) : (updateTx s).pending = s.pending := by
  unfold updateTx; simp

/-- The transmit update recomputes on the updated UART (R162). -/
theorem updateTx_eq (s : State) : updateTx s = (s.withUart s.uart.txStatus).recompute := rfl

@[simp] theorem clearRx_tmr (p : Port) (s : State) : (clearRx p s).tmr = s.tmr := by
  unfold clearRx; simp
@[simp] theorem clearRx_uart (p : Port) (s : State) : (clearRx p s).uart = s.uart.setRx p false := by
  unfold clearRx; simp
@[simp] theorem clearRx_fdc (p : Port) (s : State) : (clearRx p s).fdc = s.fdc := by
  unfold clearRx; simp
@[simp] theorem clearRx_nv (p : Port) (s : State) : (clearRx p s).nv = s.nv := by
  unfold clearRx; simp
@[simp] theorem clearRx_params (p : Port) (s : State) : (clearRx p s).params = s.params := by
  unfold clearRx; simp
@[simp] theorem clearRx_inputs (p : Port) (s : State) : (clearRx p s).inputs = s.inputs := by
  unfold clearRx; simp
@[simp] theorem clearRx_returned (p : Port) (s : State) : (clearRx p s).returned = s.returned := by
  unfold clearRx; simp
@[simp] theorem clearRx_pending (p : Port) (s : State) : (clearRx p s).pending = s.pending := by
  unfold clearRx; simp

@[simp] theorem rxDeliver_tmr (c : Byte) (s : State) : (rxDeliver c s).tmr = s.tmr := by
  unfold rxDeliver; simp
@[simp] theorem rxDeliver_uart (c : Byte) (s : State) : (rxDeliver c s).uart = (s.uart.deliverTo c .a).deliverTo c .b := by
  unfold rxDeliver; simp
@[simp] theorem rxDeliver_fdc (c : Byte) (s : State) : (rxDeliver c s).fdc = s.fdc := by
  unfold rxDeliver; simp
@[simp] theorem rxDeliver_nv (c : Byte) (s : State) : (rxDeliver c s).nv = s.nv := by
  unfold rxDeliver; simp
@[simp] theorem rxDeliver_params (c : Byte) (s : State) : (rxDeliver c s).params = s.params := by
  unfold rxDeliver; simp
@[simp] theorem rxDeliver_inputs (c : Byte) (s : State) : (rxDeliver c s).inputs = s.inputs := by
  unfold rxDeliver; simp
@[simp] theorem rxDeliver_returned (c : Byte) (s : State) : (rxDeliver c s).returned = s.returned := by
  unfold rxDeliver; simp
@[simp] theorem rxDeliver_pending (c : Byte) (s : State) : (rxDeliver c s).pending = s.pending := by
  unfold rxDeliver; simp

/-- A command's state: the UART the command leaves, then the recompute (R166). -/
theorem commandWith_eq (p : Port) (b : Byte) (effect : Port → Uart → Uart) (s : State) :
    commandWith p b effect s =
      (s.withUart (effect p (s.uart.setPort p ((s.uart.port p).enables b))).txStatus).recompute := rfl

/-- What the receive-ready setting of a port leaves in that port. -/
theorem Uart.setRx_port_same (u : Uart) (p : Port) (b : Bool) :
    (u.setRx p b).port p = { u.port p with status := setBit (u.port p).status rxrBit b } := by
  cases p <;> rfl

/-- The other port is left alone. -/
theorem Uart.setRx_port_other (u : Uart) (p r : Port) (b : Bool) (h : r ≠ p) : (u.setRx p b).port r = u.port r := by
  cases p <;> cases r <;> first | rfl | exact absurd rfl h

@[simp] theorem Uart.setRx_istat (u : Uart) (p : Port) (b : Bool) :
    (u.setRx p b).istat = setBit u.istat (rxBit p) b := rfl

@[simp] theorem Uart.setRx_imask (u : Uart) (p : Port) (b : Bool) : (u.setRx p b).imask = u.imask := by
  cases p <;> rfl

@[simp] theorem Uart.setRx_acr (u : Uart) (p : Port) (b : Bool) : (u.setRx p b).acr = u.acr := by
  cases p <;> rfl

@[simp] theorem Uart.setRx_counterSet (u : Uart) (p : Port) (b : Bool) : (u.setRx p b).counterSet = u.counterSet := by
  cases p <;> rfl

@[simp] theorem Uart.setRx_counterValue (u : Uart) (p : Port) (b : Bool) : (u.setRx p b).counterValue = u.counterValue := by
  cases p <;> rfl

@[simp] theorem Uart.setRx_counterEnabled (u : Uart) (p : Port) (b : Bool) : (u.setRx p b).counterEnabled = u.counterEnabled := by
  cases p <;> rfl

/-! ## The floppy controller -/

@[simp] theorem finish_csr (st : Byte) (s : State) : (finish st s).csr = ⟨setBit s.csr.bits 2 true⟩ := rfl
@[simp] theorem finish_tmr (st : Byte) (s : State) : (finish st s).tmr = s.tmr := rfl
@[simp] theorem finish_uart (st : Byte) (s : State) : (finish st s).uart = s.uart := rfl
@[simp] theorem finish_fdc (st : Byte) (s : State) : (finish st s).fdc = { s.fdc with status := st, drq := false, xfer := none, multi := false, phase := .idle } := rfl
@[simp] theorem finish_nv (st : Byte) (s : State) : (finish st s).nv = s.nv := rfl
@[simp] theorem finish_params (st : Byte) (s : State) : (finish st s).params = s.params := rfl
@[simp] theorem finish_inputs (st : Byte) (s : State) : (finish st s).inputs = s.inputs := rfl
@[simp] theorem finish_history (st : Byte) (s : State) : (finish st s).history = s.history := rfl
@[simp] theorem finish_returned (st : Byte) (s : State) : (finish st s).returned = s.returned := rfl
@[simp] theorem finish_pending (st : Byte) (s : State) : (finish st s).pending = s.pending := rfl

@[simp] theorem publish_csr (x : Xfer) (s : State) : (publish x s).csr = s.csr := rfl
@[simp] theorem publish_tmr (x : Xfer) (s : State) : (publish x s).tmr = s.tmr := rfl
@[simp] theorem publish_uart (x : Xfer) (s : State) : (publish x s).uart = s.uart := rfl
@[simp] theorem publish_fdc (x : Xfer) (s : State) : (publish x s).fdc = { s.fdc with xfer := some x, drq := true, phase := .waitDrq } := rfl
@[simp] theorem publish_nv (x : Xfer) (s : State) : (publish x s).nv = s.nv := rfl
@[simp] theorem publish_params (x : Xfer) (s : State) : (publish x s).params = s.params := rfl
@[simp] theorem publish_inputs (x : Xfer) (s : State) : (publish x s).inputs = s.inputs := rfl
@[simp] theorem publish_history (x : Xfer) (s : State) : (publish x s).history = s.history := rfl
@[simp] theorem publish_returned (x : Xfer) (s : State) : (publish x s).returned = s.returned := rfl
@[simp] theorem publish_pending (x : Xfer) (s : State) : (publish x s).pending = s.pending := rfl

@[simp] theorem typeIFinish_csr (h ver : Bool) (s : State) : (typeIFinish h ver s).csr = ⟨setBit s.csr.bits 2 true⟩ := rfl
@[simp] theorem typeIFinish_tmr (h ver : Bool) (s : State) : (typeIFinish h ver s).tmr = s.tmr := rfl
@[simp] theorem typeIFinish_uart (h ver : Bool) (s : State) : (typeIFinish h ver s).uart = s.uart := rfl
@[simp] theorem typeIFinish_fdc (h ver : Bool) (s : State) : (typeIFinish h ver s).fdc = { s.fdc with status := typeIStatus s.fdc s.inputs.fdcReady h ver, drq := false, xfer := none, multi := false, phase := .idle } := rfl
@[simp] theorem typeIFinish_nv (h ver : Bool) (s : State) : (typeIFinish h ver s).nv = s.nv := rfl
@[simp] theorem typeIFinish_params (h ver : Bool) (s : State) : (typeIFinish h ver s).params = s.params := rfl
@[simp] theorem typeIFinish_inputs (h ver : Bool) (s : State) : (typeIFinish h ver s).inputs = s.inputs := rfl
@[simp] theorem typeIFinish_history (h ver : Bool) (s : State) : (typeIFinish h ver s).history = s.history := rfl
@[simp] theorem typeIFinish_returned (h ver : Bool) (s : State) : (typeIFinish h ver s).returned = s.returned := rfl
@[simp] theorem typeIFinish_pending (h ver : Bool) (s : State) : (typeIFinish h ver s).pending = s.pending := rfl

/-- The one way a sector command can go on and the ways it can end (R251). -/
theorem sectorStart_cases (dir : XferDir) (s : State) :
    (s.inputs.fdcReady = false ∧ sectorStart dir s = finish 0x00 s) ∨
    (s.inputs.fdcReady = true ∧ dir = .toDisk ∧ s.inputs.fdcWp = true ∧ sectorStart dir s = finish fdcWpStatus s) ∨
    (s.inputs.fdcReady = true ∧ ¬(dir = .toDisk ∧ s.inputs.fdcWp = true) ∧ s.fdc.sectorFound = false ∧
      sectorStart dir s = finish fdcRnfStatus s) ∨
    (s.inputs.fdcReady = true ∧ ¬(dir = .toDisk ∧ s.inputs.fdcWp = true) ∧ s.fdc.sectorFound = true ∧
      sectorStart dir s =
        publish { dir := dir, source := .image, offset := sectorOffset s.fdc, length := Config.fdcSectorSize } s) := by
  unfold sectorStart
  split
  · exact .inl ⟨‹_›, rfl⟩
  · have hr : s.inputs.fdcReady = true := by simpa using ‹¬s.inputs.fdcReady = false›
    split
    · rename_i h
      exact .inr (.inl ⟨hr, h.1, h.2, rfl⟩)
    · rename_i h
      split
      · exact .inr (.inr (.inl ⟨hr, h, ‹_›, rfl⟩))
      · exact .inr (.inr (.inr ⟨hr, h, by simpa using ‹¬s.fdc.sectorFound = false›, rfl⟩))

/-- The ways a track transfer can go (R257, R258). -/
theorem trackStart_cases (dir : XferDir) (s : State) :
    (s.inputs.fdcReady = false ∧ trackStart dir s = finish 0x00 s) ∨
    (s.inputs.fdcReady = true ∧ dir = .toDisk ∧ s.inputs.fdcWp = true ∧ trackStart dir s = finish fdcWpStatus s) ∨
    (s.inputs.fdcReady = true ∧ ¬(dir = .toDisk ∧ s.inputs.fdcWp = true) ∧
      trackStart dir s =
        publish { dir := dir, source := .image, offset := trackOffset s.fdc, length := Config.fdcTrackBytes } s) := by
  unfold trackStart
  split
  · exact .inl ⟨‹_›, rfl⟩
  · have hr : s.inputs.fdcReady = true := by simpa using ‹¬s.inputs.fdcReady = false›
    split
    · rename_i h
      exact .inr (.inl ⟨hr, h.1, h.2, rfl⟩)
    · exact .inr (.inr ⟨hr, ‹_›, rfl⟩)

/-- The head stays on the disk (43_floppy.md, `clamp`). -/
theorem clampTrack_lt (t : Int) : clampTrack t < Config.fdcTracks := by
  unfold clampTrack Config.fdcTracks
  omega

/-- The clamp, on a difference of naturals. -/
theorem clampTrack_sub (a b : Nat) : clampTrack ((a : Int) - (b : Int)) = min (a - b) 79 := by
  unfold clampTrack Config.fdcTracks
  omega

/-! ## The store -/

/-- An NVRAM access passes its checks exactly where the store is allocated and the access lies in it (R292, R293). -/
theorem nvCheck_none (s : State) (o n : Nat) :
    nvCheck s o n = none ↔ s.nv.allocated = true ∧ o + n ≤ s.params.nvramSize := by
  unfold nvCheck
  split
  · simp_all
  · split
    · simp_all
    · simp_all

end Sys2Proof.Machine
end

