-- ==== Sys2Proof/Laws/Fdc.lean ====
section
/-! SUPPORT. For each procedure of the floppy controller, once, what it can do (R231, R235, R251, R256 to R261). -/

namespace Sys2Proof.Machine

/-- `Class(b)` as ranges of the high nibble (R231). -/
theorem fdcClass_eq (b : Byte) :
    fdcClass b =
      if b.toNat / 16 < 8 then .typeI
      else if b.toNat / 16 < 0xC then .typeII
      else if b.toNat / 16 = 0xD then .typeIV
      else .typeIII := by
  revert b; decide

/-- A sector command writes the controller and the CSR. -/
theorem sectorStart_frame (dir : XferDir) (s : State) :
    sectorStart dir s = { s with fdc := (sectorStart dir s).fdc, csr := (sectorStart dir s).csr } := by
  rcases sectorStart_cases dir s with ⟨_, e⟩ | ⟨_, _, _, e⟩ | ⟨_, _, _, e⟩ | ⟨_, _, _, e⟩ <;> rw [e] <;> rfl

/-- A track transfer writes the controller and the CSR. -/
theorem trackStart_frame (dir : XferDir) (s : State) :
    trackStart dir s = { s with fdc := (trackStart dir s).fdc, csr := (trackStart dir s).csr } := by
  rcases trackStart_cases dir s with ⟨_, e⟩ | ⟨_, _, _, e⟩ | ⟨_, _, e⟩ <;> rw [e] <;> rfl

/-- FORCE_INTERRUPT writes the controller and CSR cause 2 (R259). -/
theorem forceInterrupt_eq (b : Byte) (s : State) :
    forceInterrupt b s =
      { s with
        fdc := { s.fdc with
          cmd := b, cmdType := .typeIV, phase := .idle, drq := false, xfer := none, multi := false, status := 0x00 }
        csr := ⟨setBit s.csr.bits 2 (b.getLsbD 3)⟩ } := by
  unfold forceInterrupt
  simp only []
  split <;> rename_i h
  · rw [h]; rfl
  · rw [Bool.eq_false_iff.2 h]; rfl

/-- What a command write can do: a Type IV byte acts, another byte is ignored while BUSY and else accepted
(R235, R357). -/
theorem fdcCommandWrite_cases (b : Byte) (s : State) :
    (fdcClass b = .typeIV ∧ fdcCommandWrite b s = forceInterrupt b s) ∨
    (fdcClass b ≠ .typeIV ∧ s.fdc.status.getLsbD 0 = true ∧ fdcCommandWrite b s = s) ∨
    (fdcClass b ≠ .typeIV ∧ s.fdc.status.getLsbD 0 = false ∧
      fdcCommandWrite b s = { s with
        fdc := s.fdc.accept b s.params.fdcLatency
        csr := ⟨setBit s.csr.bits 2 false⟩ }) := by
  unfold fdcCommandWrite
  split
  · exact .inl ⟨‹_›, rfl⟩
  · split
    · exact .inr (.inl ⟨‹_›, ‹_›, rfl⟩)
    · exact .inr (.inr ⟨‹_›, Bool.eq_false_iff.2 ‹_›, rfl⟩)

/-- What an acknowledgment can do (R260). -/
theorem fdcDrqAck_cases (s : State) :
    (s.fdc.phase ≠ .waitDrq ∧ fdcDrqAck s = s) ∨
    (s.fdc.phase = .waitDrq ∧ s.fdc.cmdType = .typeII ∧ s.fdc.multi = true ∧
      fdcDrqAck s = sectorStart (if s.fdc.cmd.getLsbD 5 then .toDisk else .toHost)
        (s.withFdc { s.fdc with drq := false, xfer := none, sector := s.fdc.sector + 1 })) ∨
    (s.fdc.phase = .waitDrq ∧ ¬(s.fdc.cmdType = .typeII ∧ s.fdc.multi = true) ∧ fdcDrqAck s = finish 0x00 s) := by
  unfold fdcDrqAck
  split
  · split
    · rename_i h1 h2
      exact .inr (.inl ⟨h1, h2.1, h2.2, rfl⟩)
    · exact .inr (.inr ⟨‹_›, ‹_›, rfl⟩)
  · exact .inl ⟨‹_›, rfl⟩

/-- What a data-late event can do (R261). -/
theorem fdcDataLate_cases (s : State) :
    (s.fdc.phase ≠ .waitDrq ∧ fdcDataLate s = s) ∨
    (s.fdc.phase = .waitDrq ∧ fdcDataLate s = finish 0x04 s) := by
  unfold fdcDataLate
  split
  · exact .inr ⟨‹_›, rfl⟩
  · exact .inl ⟨‹_›, rfl⟩

/-- READ_ADDRESS writes the controller and the inputs' draws (R256). -/
theorem readAddress_frame (s : State) :
    readAddress s = { s with fdc := (readAddress s).fdc, inputs := (readAddress s).inputs } := rfl

/-- Reading the status uses up at most a draw and changes nothing else (R233). -/
theorem afterStatusValue_frame (s : State) :
    afterStatusValue s = { s with inputs := (afterStatusValue s).inputs } := by
  unfold afterStatusValue; split <;> rfl

end Sys2Proof.Machine
end

