-- ==== Sys2Proof/Laws/PerInstr.lean ====
section
/-! SUPPORT. Per-instruction lemmas: decode and encode agree (RoundTrip), and the encoding matches the row of
spec/opcode_table.json (TableRow). One lemma a constructor of Instr. -/

namespace Sys2Proof.Laws

/-- Decoding a well-formed operation's encoding gives the operation. -/
def RoundTrip.Statement (i : Instr) : Prop := i.wellFormed = true → decode (encode i) = .instr i

/-- A row of spec/opcode_table.json: its device and format, mask and match. -/
inductive Row where
  | bus (dev : RegDevice) (mask value : Byte)
  | nv (mask value : Byte)
  | uartCmd (mask value : Byte)
  | fdcCmd (mask value : Byte)
  deriving DecidableEq, Repr

/-- An access is of a row's format and device, and its selector or command byte matches the row. -/
def Row.matches : Row → Access → Bool
  | .bus dev mask value, .bus d sel _ _ => d == dev && sel &&& mask == value
  | .nv mask value, .nv sel _ _ _ => sel &&& mask == value
  | .uartCmd mask value, .uartCmd _ b => b &&& mask == value
  | .fdcCmd mask value, .fdcCmd b => b &&& mask == value
  | _, _ => false

/-- The row of spec/opcode_table.json an operation stands for, its mask and match as the table writes them. -/
def tableRow : Instr → Row
  | .uartRdMra _ => .bus .uart 0xFF 0x00
  | .uartRdSra _ => .bus .uart 0xFF 0x01
  | .uartRdRsv2 _ => .bus .uart 0xFF 0x02
  | .uartRdRhra _ => .bus .uart 0xFF 0x03
  | .uartRdIpcr _ => .bus .uart 0xFF 0x04
  | .uartRdIsr _ => .bus .uart 0xFF 0x05
  | .uartRdCtu _ => .bus .uart 0xFF 0x06
  | .uartRdCtl _ => .bus .uart 0xFF 0x07
  | .uartRdMrb _ => .bus .uart 0xFF 0x08
  | .uartRdSrb _ => .bus .uart 0xFF 0x09
  | .uartRdRsv10 _ => .bus .uart 0xFF 0x0A
  | .uartRdRhrb _ => .bus .uart 0xFF 0x0B
  | .uartRdRsv12 _ => .bus .uart 0xFF 0x0C
  | .uartRdRsv13 _ => .bus .uart 0xFF 0x0D
  | .uartRdStart _ => .bus .uart 0xFF 0x0E
  | .uartRdStop _ => .bus .uart 0xFF 0x0F
  | .uartWrMra _ _ => .bus .uart 0xFF 0x80
  | .uartWrCsra _ _ => .bus .uart 0xFF 0x81
  | .uartWrCra _ _ => .bus .uart 0xFF 0x82
  | .uartWrThra _ _ => .bus .uart 0xFF 0x83
  | .uartWrAcr _ _ => .bus .uart 0xFF 0x84
  | .uartWrImr _ _ => .bus .uart 0xFF 0x85
  | .uartWrCtur _ _ => .bus .uart 0xFF 0x86
  | .uartWrCtlr _ _ => .bus .uart 0xFF 0x87
  | .uartWrMrb _ _ => .bus .uart 0xFF 0x88
  | .uartWrCsrb _ _ => .bus .uart 0xFF 0x89
  | .uartWrCrb _ _ => .bus .uart 0xFF 0x8A
  | .uartWrThrb _ _ => .bus .uart 0xFF 0x8B
  | .uartWrRsv12 _ _ => .bus .uart 0xFF 0x8C
  | .uartWrRsv13 _ _ => .bus .uart 0xFF 0x8D
  | .uartWrSopr _ _ => .bus .uart 0xFF 0x8E
  | .uartWrRopr _ _ => .bus .uart 0xFF 0x8F
  | .uartCmdMisc0 _ _ _ _ _ _ => .uartCmd 0x70 0x00
  | .uartCmdMisc1 _ _ _ _ _ _ => .uartCmd 0x70 0x10
  | .uartCmdMisc2 _ _ _ _ _ _ => .uartCmd 0x70 0x20
  | .uartCmdMisc3 _ _ _ _ _ _ => .uartCmd 0x70 0x30
  | .uartCmdMisc4 _ _ _ _ _ _ => .uartCmd 0x70 0x40
  | .uartCmdMisc5 _ _ _ _ _ _ => .uartCmd 0x70 0x50
  | .uartCmdMisc6 _ _ _ _ _ _ => .uartCmd 0x70 0x60
  | .uartCmdMisc7 _ _ _ _ _ _ => .uartCmd 0x70 0x70
  | .tmrRdC0 _ => .bus .tmr 0xFF 0x00
  | .tmrRdC1 _ => .bus .tmr 0xFF 0x01
  | .tmrRdC2 _ => .bus .tmr 0xFF 0x02
  | .tmrRdCtl _ => .bus .tmr 0xFF 0x03
  | .tmrWrC0 _ _ => .bus .tmr 0xFF 0x80
  | .tmrWrC1 _ _ => .bus .tmr 0xFF 0x81
  | .tmrWrC2 _ _ => .bus .tmr 0xFF 0x82
  | .tmrWrCtl _ _ => .bus .tmr 0xFF 0x83
  | .csrRd _ _ _ => .bus .csr 0x83 0x03
  | .csrRdNop0 _ _ => .bus .csr 0x83 0x00
  | .csrRdNop1 _ _ => .bus .csr 0x83 0x01
  | .csrRdNop2 _ _ => .bus .csr 0x83 0x02
  | .csrClr _ _ _ => .bus .csr 0xC3 0x83
  | .csrSet _ _ _ => .bus .csr 0xC3 0xC3
  | .csrWrNop0 _ _ _ => .bus .csr 0x83 0x80
  | .csrWrNop1 _ _ _ => .bus .csr 0x83 0x81
  | .csrWrNop2 _ _ _ => .bus .csr 0x83 0x82
  | .fdcRdStatus _ => .bus .fdc 0xFF 0x00
  | .fdcRdTrack _ => .bus .fdc 0xFF 0x01
  | .fdcRdSector _ => .bus .fdc 0xFF 0x02
  | .fdcRdData _ => .bus .fdc 0xFF 0x03
  | .fdcWrCmd _ _ => .bus .fdc 0xFF 0x80
  | .fdcWrTrack _ _ => .bus .fdc 0xFF 0x81
  | .fdcWrSector _ _ => .bus .fdc 0xFF 0x82
  | .fdcWrData _ _ => .bus .fdc 0xFF 0x83
  | .fdcRestore _ _ _ => .fdcCmd 0xF0 0x00
  | .fdcSeek _ _ _ => .fdcCmd 0xF0 0x10
  | .fdcStep _ _ _ _ => .fdcCmd 0xE0 0x20
  | .fdcStepIn _ _ _ _ => .fdcCmd 0xE0 0x40
  | .fdcStepOut _ _ _ _ => .fdcCmd 0xE0 0x60
  | .fdcReadSec _ _ _ _ => .fdcCmd 0xF0 0x80
  | .fdcReadSecMulti _ _ _ _ => .fdcCmd 0xF0 0x90
  | .fdcWriteSec _ _ _ _ => .fdcCmd 0xF0 0xA0
  | .fdcWriteSecMulti _ _ _ _ => .fdcCmd 0xF0 0xB0
  | .fdcReadAddress _ _ _ _ => .fdcCmd 0xF0 0xC0
  | .fdcForceInterrupt _ => .fdcCmd 0xF0 0xD0
  | .fdcReadTrack _ _ _ _ => .fdcCmd 0xF0 0xE0
  | .fdcWriteTrack _ _ _ _ => .fdcCmd 0xF0 0xF0
  | .nvRd _ _ => .nv 0x80 0x00
  | .nvWr _ _ _ => .nv 0x80 0x80

/-- The encoding of an operation matches the operation's row, and the row's pattern lies in its mask. -/
def TableRow.Statement (i : Instr) : Prop := (tableRow i).matches (encode i) = true

open Sys2Proof.Machine

/-- The fields of a CSR write selector of the form `1wkkkk11` (R93). -/
theorem csrCause_sel (w : Bool) (k : BitVec 4) :
    (1#1 ++ csrCauseOffset w k).getLsbD 7 = true ∧ ((1#1 ++ csrCauseOffset w k).setWidth 2).toNat = 3 ∧
      (1#1 ++ csrCauseOffset w k).getLsbD 6 = w ∧ (1#1 ++ csrCauseOffset w k).extractLsb' 2 4 = k := by
  revert w k; decide

/-- The fields of a CSR write selector of the form `1xxxxx` and two low bits (R93). -/
theorem csrNop_sel (x : BitVec 5) (low : BitVec 2) :
    (1#1 ++ csrOffset x low).getLsbD 7 = true ∧ ((1#1 ++ csrOffset x low).setWidth 2).toNat = low.toNat ∧
      (1#1 ++ csrOffset x low).extractLsb' 2 5 = x := by
  revert x low; decide

theorem RoundTrip.uartRdMra (sz : AccSize) : RoundTrip.Statement (.uartRdMra sz) := fun _ => rfl
theorem RoundTrip.uartRdSra (sz : AccSize) : RoundTrip.Statement (.uartRdSra sz) := fun _ => rfl
theorem RoundTrip.uartRdRsv2 (sz : AccSize) : RoundTrip.Statement (.uartRdRsv2 sz) := fun _ => rfl
theorem RoundTrip.uartRdRhra (sz : AccSize) : RoundTrip.Statement (.uartRdRhra sz) := fun _ => rfl
theorem RoundTrip.uartRdIpcr (sz : AccSize) : RoundTrip.Statement (.uartRdIpcr sz) := fun _ => rfl
theorem RoundTrip.uartRdIsr (sz : AccSize) : RoundTrip.Statement (.uartRdIsr sz) := fun _ => rfl
theorem RoundTrip.uartRdCtu (sz : AccSize) : RoundTrip.Statement (.uartRdCtu sz) := fun _ => rfl
theorem RoundTrip.uartRdCtl (sz : AccSize) : RoundTrip.Statement (.uartRdCtl sz) := fun _ => rfl
theorem RoundTrip.uartRdMrb (sz : AccSize) : RoundTrip.Statement (.uartRdMrb sz) := fun _ => rfl
theorem RoundTrip.uartRdSrb (sz : AccSize) : RoundTrip.Statement (.uartRdSrb sz) := fun _ => rfl
theorem RoundTrip.uartRdRsv10 (sz : AccSize) : RoundTrip.Statement (.uartRdRsv10 sz) := fun _ => rfl
theorem RoundTrip.uartRdRhrb (sz : AccSize) : RoundTrip.Statement (.uartRdRhrb sz) := fun _ => rfl
theorem RoundTrip.uartRdRsv12 (sz : AccSize) : RoundTrip.Statement (.uartRdRsv12 sz) := fun _ => rfl
theorem RoundTrip.uartRdRsv13 (sz : AccSize) : RoundTrip.Statement (.uartRdRsv13 sz) := fun _ => rfl
theorem RoundTrip.uartRdStart (sz : AccSize) : RoundTrip.Statement (.uartRdStart sz) := fun _ => rfl
theorem RoundTrip.uartRdStop (sz : AccSize) : RoundTrip.Statement (.uartRdStop sz) := fun _ => rfl
theorem RoundTrip.uartWrMra (sz : AccSize) (v : Word) : RoundTrip.Statement (.uartWrMra sz v) := fun h => congrArg (fun x => Decoded.instr (.uartWrMra sz x)) (keep_of_fits sz v h)
theorem RoundTrip.uartWrCsra (sz : AccSize) (v : Word) : RoundTrip.Statement (.uartWrCsra sz v) := fun h => congrArg (fun x => Decoded.instr (.uartWrCsra sz x)) (keep_of_fits sz v h)
theorem RoundTrip.uartWrCra (sz : AccSize) (v : Word) : RoundTrip.Statement (.uartWrCra sz v) := fun h => congrArg (fun x => Decoded.instr (.uartWrCra sz x)) (keep_of_fits sz v h)
theorem RoundTrip.uartWrThra (sz : AccSize) (v : Word) : RoundTrip.Statement (.uartWrThra sz v) := fun h => congrArg (fun x => Decoded.instr (.uartWrThra sz x)) (keep_of_fits sz v h)
theorem RoundTrip.uartWrAcr (sz : AccSize) (v : Word) : RoundTrip.Statement (.uartWrAcr sz v) := fun h => congrArg (fun x => Decoded.instr (.uartWrAcr sz x)) (keep_of_fits sz v h)
theorem RoundTrip.uartWrImr (sz : AccSize) (v : Word) : RoundTrip.Statement (.uartWrImr sz v) := fun h => congrArg (fun x => Decoded.instr (.uartWrImr sz x)) (keep_of_fits sz v h)
theorem RoundTrip.uartWrCtur (sz : AccSize) (v : Word) : RoundTrip.Statement (.uartWrCtur sz v) := fun h => congrArg (fun x => Decoded.instr (.uartWrCtur sz x)) (keep_of_fits sz v h)
theorem RoundTrip.uartWrCtlr (sz : AccSize) (v : Word) : RoundTrip.Statement (.uartWrCtlr sz v) := fun h => congrArg (fun x => Decoded.instr (.uartWrCtlr sz x)) (keep_of_fits sz v h)
theorem RoundTrip.uartWrMrb (sz : AccSize) (v : Word) : RoundTrip.Statement (.uartWrMrb sz v) := fun h => congrArg (fun x => Decoded.instr (.uartWrMrb sz x)) (keep_of_fits sz v h)
theorem RoundTrip.uartWrCsrb (sz : AccSize) (v : Word) : RoundTrip.Statement (.uartWrCsrb sz v) := fun h => congrArg (fun x => Decoded.instr (.uartWrCsrb sz x)) (keep_of_fits sz v h)
theorem RoundTrip.uartWrCrb (sz : AccSize) (v : Word) : RoundTrip.Statement (.uartWrCrb sz v) := fun h => congrArg (fun x => Decoded.instr (.uartWrCrb sz x)) (keep_of_fits sz v h)
theorem RoundTrip.uartWrThrb (sz : AccSize) (v : Word) : RoundTrip.Statement (.uartWrThrb sz v) := fun h => congrArg (fun x => Decoded.instr (.uartWrThrb sz x)) (keep_of_fits sz v h)
theorem RoundTrip.uartWrRsv12 (sz : AccSize) (v : Word) : RoundTrip.Statement (.uartWrRsv12 sz v) := fun h => congrArg (fun x => Decoded.instr (.uartWrRsv12 sz x)) (keep_of_fits sz v h)
theorem RoundTrip.uartWrRsv13 (sz : AccSize) (v : Word) : RoundTrip.Statement (.uartWrRsv13 sz v) := fun h => congrArg (fun x => Decoded.instr (.uartWrRsv13 sz x)) (keep_of_fits sz v h)
theorem RoundTrip.uartWrSopr (sz : AccSize) (v : Word) : RoundTrip.Statement (.uartWrSopr sz v) := fun h => congrArg (fun x => Decoded.instr (.uartWrSopr sz x)) (keep_of_fits sz v h)
theorem RoundTrip.uartWrRopr (sz : AccSize) (v : Word) : RoundTrip.Statement (.uartWrRopr sz v) := fun h => congrArg (fun x => Decoded.instr (.uartWrRopr sz x)) (keep_of_fits sz v h)
theorem RoundTrip.uartCmdMisc0 (p : Port) (x : Bool) (dtx : Bool) (etx : Bool) (drx : Bool) (erx : Bool) : RoundTrip.Statement (.uartCmdMisc0 p x dtx etx drx erx) := by
  intro _; revert x dtx etx drx erx; cases p <;> decide
theorem RoundTrip.uartCmdMisc1 (p : Port) (x : Bool) (dtx : Bool) (etx : Bool) (drx : Bool) (erx : Bool) : RoundTrip.Statement (.uartCmdMisc1 p x dtx etx drx erx) := by
  intro _; revert x dtx etx drx erx; cases p <;> decide
theorem RoundTrip.uartCmdMisc2 (p : Port) (x : Bool) (dtx : Bool) (etx : Bool) (drx : Bool) (erx : Bool) : RoundTrip.Statement (.uartCmdMisc2 p x dtx etx drx erx) := by
  intro _; revert x dtx etx drx erx; cases p <;> decide
theorem RoundTrip.uartCmdMisc3 (p : Port) (x : Bool) (dtx : Bool) (etx : Bool) (drx : Bool) (erx : Bool) : RoundTrip.Statement (.uartCmdMisc3 p x dtx etx drx erx) := by
  intro _; revert x dtx etx drx erx; cases p <;> decide
theorem RoundTrip.uartCmdMisc4 (p : Port) (x : Bool) (dtx : Bool) (etx : Bool) (drx : Bool) (erx : Bool) : RoundTrip.Statement (.uartCmdMisc4 p x dtx etx drx erx) := by
  intro _; revert x dtx etx drx erx; cases p <;> decide
theorem RoundTrip.uartCmdMisc5 (p : Port) (x : Bool) (dtx : Bool) (etx : Bool) (drx : Bool) (erx : Bool) : RoundTrip.Statement (.uartCmdMisc5 p x dtx etx drx erx) := by
  intro _; revert x dtx etx drx erx; cases p <;> decide
theorem RoundTrip.uartCmdMisc6 (p : Port) (x : Bool) (dtx : Bool) (etx : Bool) (drx : Bool) (erx : Bool) : RoundTrip.Statement (.uartCmdMisc6 p x dtx etx drx erx) := by
  intro _; revert x dtx etx drx erx; cases p <;> decide
theorem RoundTrip.uartCmdMisc7 (p : Port) (x : Bool) (dtx : Bool) (etx : Bool) (drx : Bool) (erx : Bool) : RoundTrip.Statement (.uartCmdMisc7 p x dtx etx drx erx) := by
  intro _; revert x dtx etx drx erx; cases p <;> decide
theorem RoundTrip.tmrRdC0 (sz : AccSize) : RoundTrip.Statement (.tmrRdC0 sz) := fun _ => rfl
theorem RoundTrip.tmrRdC1 (sz : AccSize) : RoundTrip.Statement (.tmrRdC1 sz) := fun _ => rfl
theorem RoundTrip.tmrRdC2 (sz : AccSize) : RoundTrip.Statement (.tmrRdC2 sz) := fun _ => rfl
theorem RoundTrip.tmrRdCtl (sz : AccSize) : RoundTrip.Statement (.tmrRdCtl sz) := fun _ => rfl
theorem RoundTrip.tmrWrC0 (sz : AccSize) (v : Word) : RoundTrip.Statement (.tmrWrC0 sz v) := fun h => congrArg (fun x => Decoded.instr (.tmrWrC0 sz x)) (keep_of_fits sz v h)
theorem RoundTrip.tmrWrC1 (sz : AccSize) (v : Word) : RoundTrip.Statement (.tmrWrC1 sz v) := fun h => congrArg (fun x => Decoded.instr (.tmrWrC1 sz x)) (keep_of_fits sz v h)
theorem RoundTrip.tmrWrC2 (sz : AccSize) (v : Word) : RoundTrip.Statement (.tmrWrC2 sz v) := fun h => congrArg (fun x => Decoded.instr (.tmrWrC2 sz x)) (keep_of_fits sz v h)
theorem RoundTrip.tmrWrCtl (sz : AccSize) (v : Word) : RoundTrip.Statement (.tmrWrCtl sz v) := fun h => congrArg (fun x => Decoded.instr (.tmrWrCtl sz x)) (keep_of_fits sz v h)
theorem RoundTrip.csrRd (w : Bool) (k : BitVec 4) (sz : AccSize) : RoundTrip.Statement (.csrRd w k sz) := by
  intro _; revert w k; cases sz <;> decide
theorem RoundTrip.csrRdNop0 (x : BitVec 5) (sz : AccSize) : RoundTrip.Statement (.csrRdNop0 x sz) := by
  intro _; revert x; cases sz <;> decide
theorem RoundTrip.csrRdNop1 (x : BitVec 5) (sz : AccSize) : RoundTrip.Statement (.csrRdNop1 x sz) := by
  intro _; revert x; cases sz <;> decide
theorem RoundTrip.csrRdNop2 (x : BitVec 5) (sz : AccSize) : RoundTrip.Statement (.csrRdNop2 x sz) := by
  intro _; revert x; cases sz <;> decide
theorem RoundTrip.csrClr (k : BitVec 4) (sz : AccSize) (v : Word) : RoundTrip.Statement (.csrClr k sz v) := by
  intro h
  simp only [encode, busWrite, decode, decodeBusWrite, decodeCsrWrite, csrCause_sel false k, keep_of_fits sz v h]
  rfl
theorem RoundTrip.csrSet (k : BitVec 4) (sz : AccSize) (v : Word) : RoundTrip.Statement (.csrSet k sz v) := by
  intro h
  simp only [encode, busWrite, decode, decodeBusWrite, decodeCsrWrite, csrCause_sel true k, keep_of_fits sz v h]
  rfl
theorem RoundTrip.csrWrNop0 (x : BitVec 5) (sz : AccSize) (v : Word) : RoundTrip.Statement (.csrWrNop0 x sz v) := by
  intro h
  simp only [encode, busWrite, decode, decodeBusWrite, decodeCsrWrite, csrNop_sel x, keep_of_fits sz v h]
  rfl
theorem RoundTrip.csrWrNop1 (x : BitVec 5) (sz : AccSize) (v : Word) : RoundTrip.Statement (.csrWrNop1 x sz v) := by
  intro h
  simp only [encode, busWrite, decode, decodeBusWrite, decodeCsrWrite, csrNop_sel x, keep_of_fits sz v h]
  rfl
theorem RoundTrip.csrWrNop2 (x : BitVec 5) (sz : AccSize) (v : Word) : RoundTrip.Statement (.csrWrNop2 x sz v) := by
  intro h
  simp only [encode, busWrite, decode, decodeBusWrite, decodeCsrWrite, csrNop_sel x, keep_of_fits sz v h]
  rfl
theorem RoundTrip.fdcRdStatus (sz : AccSize) : RoundTrip.Statement (.fdcRdStatus sz) := fun _ => rfl
theorem RoundTrip.fdcRdTrack (sz : AccSize) : RoundTrip.Statement (.fdcRdTrack sz) := fun _ => rfl
theorem RoundTrip.fdcRdSector (sz : AccSize) : RoundTrip.Statement (.fdcRdSector sz) := fun _ => rfl
theorem RoundTrip.fdcRdData (sz : AccSize) : RoundTrip.Statement (.fdcRdData sz) := fun _ => rfl
theorem RoundTrip.fdcWrCmd (sz : AccSize) (v : Word) : RoundTrip.Statement (.fdcWrCmd sz v) := fun h => congrArg (fun x => Decoded.instr (.fdcWrCmd sz x)) (keep_of_fits sz v h)
theorem RoundTrip.fdcWrTrack (sz : AccSize) (v : Word) : RoundTrip.Statement (.fdcWrTrack sz v) := fun h => congrArg (fun x => Decoded.instr (.fdcWrTrack sz x)) (keep_of_fits sz v h)
theorem RoundTrip.fdcWrSector (sz : AccSize) (v : Word) : RoundTrip.Statement (.fdcWrSector sz v) := fun h => congrArg (fun x => Decoded.instr (.fdcWrSector sz x)) (keep_of_fits sz v h)
theorem RoundTrip.fdcWrData (sz : AccSize) (v : Word) : RoundTrip.Statement (.fdcWrData sz v) := fun h => congrArg (fun x => Decoded.instr (.fdcWrData sz x)) (keep_of_fits sz v h)
theorem RoundTrip.fdcRestore (h : Bool) (ver : Bool) (r : BitVec 2) : RoundTrip.Statement (.fdcRestore h ver r) := by
  intro _; revert h ver r; decide
theorem RoundTrip.fdcSeek (h : Bool) (ver : Bool) (r : BitVec 2) : RoundTrip.Statement (.fdcSeek h ver r) := by
  intro _; revert h ver r; decide
theorem RoundTrip.fdcStep (u : Bool) (h : Bool) (ver : Bool) (r : BitVec 2) : RoundTrip.Statement (.fdcStep u h ver r) := by
  intro _; revert u h ver r; decide
theorem RoundTrip.fdcStepIn (u : Bool) (h : Bool) (ver : Bool) (r : BitVec 2) : RoundTrip.Statement (.fdcStepIn u h ver r) := by
  intro _; revert u h ver r; decide
theorem RoundTrip.fdcStepOut (u : Bool) (h : Bool) (ver : Bool) (r : BitVec 2) : RoundTrip.Statement (.fdcStepOut u h ver r) := by
  intro _; revert u h ver r; decide
theorem RoundTrip.fdcReadSec (l : Bool) (e : Bool) (side : Bool) (x : Bool) : RoundTrip.Statement (.fdcReadSec l e side x) := by
  intro _; revert l e side x; decide
theorem RoundTrip.fdcReadSecMulti (l : Bool) (e : Bool) (side : Bool) (x : Bool) : RoundTrip.Statement (.fdcReadSecMulti l e side x) := by
  intro _; revert l e side x; decide
theorem RoundTrip.fdcWriteSec (l : Bool) (e : Bool) (side : Bool) (x : Bool) : RoundTrip.Statement (.fdcWriteSec l e side x) := by
  intro _; revert l e side x; decide
theorem RoundTrip.fdcWriteSecMulti (l : Bool) (e : Bool) (side : Bool) (x : Bool) : RoundTrip.Statement (.fdcWriteSecMulti l e side x) := by
  intro _; revert l e side x; decide
theorem RoundTrip.fdcReadAddress (y : Bool) (e : Bool) (side : Bool) (x : Bool) : RoundTrip.Statement (.fdcReadAddress y e side x) := by
  intro _; revert y e side x; decide
theorem RoundTrip.fdcForceInterrupt (cond : BitVec 4) : RoundTrip.Statement (.fdcForceInterrupt cond) := by
  intro _; revert cond; decide
theorem RoundTrip.fdcReadTrack (y : Bool) (e : Bool) (side : Bool) (x : Bool) : RoundTrip.Statement (.fdcReadTrack y e side x) := by
  intro _; revert y e side x; decide
theorem RoundTrip.fdcWriteTrack (y : Bool) (e : Bool) (side : Bool) (x : Bool) : RoundTrip.Statement (.fdcWriteTrack y e side x) := by
  intro _; revert y e side x; decide
theorem RoundTrip.nvRd (off : Nat) (sz : AccSize) : RoundTrip.Statement (.nvRd off sz) := fun _ => rfl
theorem RoundTrip.nvWr (off : Nat) (sz : AccSize) (v : Word) : RoundTrip.Statement (.nvWr off sz v) := fun h => congrArg (fun x => Decoded.instr (.nvWr off sz x)) (keep_of_fits sz v h)

theorem TableRow.uartRdMra (sz : AccSize) : TableRow.Statement (.uartRdMra sz) := rfl
theorem TableRow.uartRdSra (sz : AccSize) : TableRow.Statement (.uartRdSra sz) := rfl
theorem TableRow.uartRdRsv2 (sz : AccSize) : TableRow.Statement (.uartRdRsv2 sz) := rfl
theorem TableRow.uartRdRhra (sz : AccSize) : TableRow.Statement (.uartRdRhra sz) := rfl
theorem TableRow.uartRdIpcr (sz : AccSize) : TableRow.Statement (.uartRdIpcr sz) := rfl
theorem TableRow.uartRdIsr (sz : AccSize) : TableRow.Statement (.uartRdIsr sz) := rfl
theorem TableRow.uartRdCtu (sz : AccSize) : TableRow.Statement (.uartRdCtu sz) := rfl
theorem TableRow.uartRdCtl (sz : AccSize) : TableRow.Statement (.uartRdCtl sz) := rfl
theorem TableRow.uartRdMrb (sz : AccSize) : TableRow.Statement (.uartRdMrb sz) := rfl
theorem TableRow.uartRdSrb (sz : AccSize) : TableRow.Statement (.uartRdSrb sz) := rfl
theorem TableRow.uartRdRsv10 (sz : AccSize) : TableRow.Statement (.uartRdRsv10 sz) := rfl
theorem TableRow.uartRdRhrb (sz : AccSize) : TableRow.Statement (.uartRdRhrb sz) := rfl
theorem TableRow.uartRdRsv12 (sz : AccSize) : TableRow.Statement (.uartRdRsv12 sz) := rfl
theorem TableRow.uartRdRsv13 (sz : AccSize) : TableRow.Statement (.uartRdRsv13 sz) := rfl
theorem TableRow.uartRdStart (sz : AccSize) : TableRow.Statement (.uartRdStart sz) := rfl
theorem TableRow.uartRdStop (sz : AccSize) : TableRow.Statement (.uartRdStop sz) := rfl
theorem TableRow.uartWrMra (sz : AccSize) (v : Word) : TableRow.Statement (.uartWrMra sz v) := rfl
theorem TableRow.uartWrCsra (sz : AccSize) (v : Word) : TableRow.Statement (.uartWrCsra sz v) := rfl
theorem TableRow.uartWrCra (sz : AccSize) (v : Word) : TableRow.Statement (.uartWrCra sz v) := rfl
theorem TableRow.uartWrThra (sz : AccSize) (v : Word) : TableRow.Statement (.uartWrThra sz v) := rfl
theorem TableRow.uartWrAcr (sz : AccSize) (v : Word) : TableRow.Statement (.uartWrAcr sz v) := rfl
theorem TableRow.uartWrImr (sz : AccSize) (v : Word) : TableRow.Statement (.uartWrImr sz v) := rfl
theorem TableRow.uartWrCtur (sz : AccSize) (v : Word) : TableRow.Statement (.uartWrCtur sz v) := rfl
theorem TableRow.uartWrCtlr (sz : AccSize) (v : Word) : TableRow.Statement (.uartWrCtlr sz v) := rfl
theorem TableRow.uartWrMrb (sz : AccSize) (v : Word) : TableRow.Statement (.uartWrMrb sz v) := rfl
theorem TableRow.uartWrCsrb (sz : AccSize) (v : Word) : TableRow.Statement (.uartWrCsrb sz v) := rfl
theorem TableRow.uartWrCrb (sz : AccSize) (v : Word) : TableRow.Statement (.uartWrCrb sz v) := rfl
theorem TableRow.uartWrThrb (sz : AccSize) (v : Word) : TableRow.Statement (.uartWrThrb sz v) := rfl
theorem TableRow.uartWrRsv12 (sz : AccSize) (v : Word) : TableRow.Statement (.uartWrRsv12 sz v) := rfl
theorem TableRow.uartWrRsv13 (sz : AccSize) (v : Word) : TableRow.Statement (.uartWrRsv13 sz v) := rfl
theorem TableRow.uartWrSopr (sz : AccSize) (v : Word) : TableRow.Statement (.uartWrSopr sz v) := rfl
theorem TableRow.uartWrRopr (sz : AccSize) (v : Word) : TableRow.Statement (.uartWrRopr sz v) := rfl
theorem TableRow.uartCmdMisc0 (p : Port) (x : Bool) (dtx : Bool) (etx : Bool) (drx : Bool) (erx : Bool) : TableRow.Statement (.uartCmdMisc0 p x dtx etx drx erx) := by
  unfold TableRow.Statement
  revert x dtx etx drx erx; cases p <;> decide
theorem TableRow.uartCmdMisc1 (p : Port) (x : Bool) (dtx : Bool) (etx : Bool) (drx : Bool) (erx : Bool) : TableRow.Statement (.uartCmdMisc1 p x dtx etx drx erx) := by
  unfold TableRow.Statement
  revert x dtx etx drx erx; cases p <;> decide
theorem TableRow.uartCmdMisc2 (p : Port) (x : Bool) (dtx : Bool) (etx : Bool) (drx : Bool) (erx : Bool) : TableRow.Statement (.uartCmdMisc2 p x dtx etx drx erx) := by
  unfold TableRow.Statement
  revert x dtx etx drx erx; cases p <;> decide
theorem TableRow.uartCmdMisc3 (p : Port) (x : Bool) (dtx : Bool) (etx : Bool) (drx : Bool) (erx : Bool) : TableRow.Statement (.uartCmdMisc3 p x dtx etx drx erx) := by
  unfold TableRow.Statement
  revert x dtx etx drx erx; cases p <;> decide
theorem TableRow.uartCmdMisc4 (p : Port) (x : Bool) (dtx : Bool) (etx : Bool) (drx : Bool) (erx : Bool) : TableRow.Statement (.uartCmdMisc4 p x dtx etx drx erx) := by
  unfold TableRow.Statement
  revert x dtx etx drx erx; cases p <;> decide
theorem TableRow.uartCmdMisc5 (p : Port) (x : Bool) (dtx : Bool) (etx : Bool) (drx : Bool) (erx : Bool) : TableRow.Statement (.uartCmdMisc5 p x dtx etx drx erx) := by
  unfold TableRow.Statement
  revert x dtx etx drx erx; cases p <;> decide
theorem TableRow.uartCmdMisc6 (p : Port) (x : Bool) (dtx : Bool) (etx : Bool) (drx : Bool) (erx : Bool) : TableRow.Statement (.uartCmdMisc6 p x dtx etx drx erx) := by
  unfold TableRow.Statement
  revert x dtx etx drx erx; cases p <;> decide
theorem TableRow.uartCmdMisc7 (p : Port) (x : Bool) (dtx : Bool) (etx : Bool) (drx : Bool) (erx : Bool) : TableRow.Statement (.uartCmdMisc7 p x dtx etx drx erx) := by
  unfold TableRow.Statement
  revert x dtx etx drx erx; cases p <;> decide
theorem TableRow.tmrRdC0 (sz : AccSize) : TableRow.Statement (.tmrRdC0 sz) := rfl
theorem TableRow.tmrRdC1 (sz : AccSize) : TableRow.Statement (.tmrRdC1 sz) := rfl
theorem TableRow.tmrRdC2 (sz : AccSize) : TableRow.Statement (.tmrRdC2 sz) := rfl
theorem TableRow.tmrRdCtl (sz : AccSize) : TableRow.Statement (.tmrRdCtl sz) := rfl
theorem TableRow.tmrWrC0 (sz : AccSize) (v : Word) : TableRow.Statement (.tmrWrC0 sz v) := rfl
theorem TableRow.tmrWrC1 (sz : AccSize) (v : Word) : TableRow.Statement (.tmrWrC1 sz v) := rfl
theorem TableRow.tmrWrC2 (sz : AccSize) (v : Word) : TableRow.Statement (.tmrWrC2 sz v) := rfl
theorem TableRow.tmrWrCtl (sz : AccSize) (v : Word) : TableRow.Statement (.tmrWrCtl sz v) := rfl
theorem TableRow.csrRd (w : Bool) (k : BitVec 4) (sz : AccSize) : TableRow.Statement (.csrRd w k sz) := by
  unfold TableRow.Statement
  revert w k; cases sz <;> decide
theorem TableRow.csrRdNop0 (x : BitVec 5) (sz : AccSize) : TableRow.Statement (.csrRdNop0 x sz) := by
  unfold TableRow.Statement
  revert x; cases sz <;> decide
theorem TableRow.csrRdNop1 (x : BitVec 5) (sz : AccSize) : TableRow.Statement (.csrRdNop1 x sz) := by
  unfold TableRow.Statement
  revert x; cases sz <;> decide
theorem TableRow.csrRdNop2 (x : BitVec 5) (sz : AccSize) : TableRow.Statement (.csrRdNop2 x sz) := by
  unfold TableRow.Statement
  revert x; cases sz <;> decide
theorem TableRow.csrClr (k : BitVec 4) (sz : AccSize) (v : Word) : TableRow.Statement (.csrClr k sz v) := by
  unfold TableRow.Statement
  show (RegDevice.csr == .csr && _) = true
  revert k; decide
theorem TableRow.csrSet (k : BitVec 4) (sz : AccSize) (v : Word) : TableRow.Statement (.csrSet k sz v) := by
  unfold TableRow.Statement
  show (RegDevice.csr == .csr && _) = true
  revert k; decide
theorem TableRow.csrWrNop0 (x : BitVec 5) (sz : AccSize) (v : Word) : TableRow.Statement (.csrWrNop0 x sz v) := by
  unfold TableRow.Statement
  show (RegDevice.csr == .csr && _) = true
  revert x; decide
theorem TableRow.csrWrNop1 (x : BitVec 5) (sz : AccSize) (v : Word) : TableRow.Statement (.csrWrNop1 x sz v) := by
  unfold TableRow.Statement
  show (RegDevice.csr == .csr && _) = true
  revert x; decide
theorem TableRow.csrWrNop2 (x : BitVec 5) (sz : AccSize) (v : Word) : TableRow.Statement (.csrWrNop2 x sz v) := by
  unfold TableRow.Statement
  show (RegDevice.csr == .csr && _) = true
  revert x; decide
theorem TableRow.fdcRdStatus (sz : AccSize) : TableRow.Statement (.fdcRdStatus sz) := rfl
theorem TableRow.fdcRdTrack (sz : AccSize) : TableRow.Statement (.fdcRdTrack sz) := rfl
theorem TableRow.fdcRdSector (sz : AccSize) : TableRow.Statement (.fdcRdSector sz) := rfl
theorem TableRow.fdcRdData (sz : AccSize) : TableRow.Statement (.fdcRdData sz) := rfl
theorem TableRow.fdcWrCmd (sz : AccSize) (v : Word) : TableRow.Statement (.fdcWrCmd sz v) := rfl
theorem TableRow.fdcWrTrack (sz : AccSize) (v : Word) : TableRow.Statement (.fdcWrTrack sz v) := rfl
theorem TableRow.fdcWrSector (sz : AccSize) (v : Word) : TableRow.Statement (.fdcWrSector sz v) := rfl
theorem TableRow.fdcWrData (sz : AccSize) (v : Word) : TableRow.Statement (.fdcWrData sz v) := rfl
theorem TableRow.fdcRestore (h : Bool) (ver : Bool) (r : BitVec 2) : TableRow.Statement (.fdcRestore h ver r) := by
  unfold TableRow.Statement
  revert h ver r; decide
theorem TableRow.fdcSeek (h : Bool) (ver : Bool) (r : BitVec 2) : TableRow.Statement (.fdcSeek h ver r) := by
  unfold TableRow.Statement
  revert h ver r; decide
theorem TableRow.fdcStep (u : Bool) (h : Bool) (ver : Bool) (r : BitVec 2) : TableRow.Statement (.fdcStep u h ver r) := by
  unfold TableRow.Statement
  revert u h ver r; decide
theorem TableRow.fdcStepIn (u : Bool) (h : Bool) (ver : Bool) (r : BitVec 2) : TableRow.Statement (.fdcStepIn u h ver r) := by
  unfold TableRow.Statement
  revert u h ver r; decide
theorem TableRow.fdcStepOut (u : Bool) (h : Bool) (ver : Bool) (r : BitVec 2) : TableRow.Statement (.fdcStepOut u h ver r) := by
  unfold TableRow.Statement
  revert u h ver r; decide
theorem TableRow.fdcReadSec (l : Bool) (e : Bool) (side : Bool) (x : Bool) : TableRow.Statement (.fdcReadSec l e side x) := by
  unfold TableRow.Statement
  revert l e side x; decide
theorem TableRow.fdcReadSecMulti (l : Bool) (e : Bool) (side : Bool) (x : Bool) : TableRow.Statement (.fdcReadSecMulti l e side x) := by
  unfold TableRow.Statement
  revert l e side x; decide
theorem TableRow.fdcWriteSec (l : Bool) (e : Bool) (side : Bool) (x : Bool) : TableRow.Statement (.fdcWriteSec l e side x) := by
  unfold TableRow.Statement
  revert l e side x; decide
theorem TableRow.fdcWriteSecMulti (l : Bool) (e : Bool) (side : Bool) (x : Bool) : TableRow.Statement (.fdcWriteSecMulti l e side x) := by
  unfold TableRow.Statement
  revert l e side x; decide
theorem TableRow.fdcReadAddress (y : Bool) (e : Bool) (side : Bool) (x : Bool) : TableRow.Statement (.fdcReadAddress y e side x) := by
  unfold TableRow.Statement
  revert y e side x; decide
theorem TableRow.fdcForceInterrupt (cond : BitVec 4) : TableRow.Statement (.fdcForceInterrupt cond) := by
  unfold TableRow.Statement
  revert cond; decide
theorem TableRow.fdcReadTrack (y : Bool) (e : Bool) (side : Bool) (x : Bool) : TableRow.Statement (.fdcReadTrack y e side x) := by
  unfold TableRow.Statement
  revert y e side x; decide
theorem TableRow.fdcWriteTrack (y : Bool) (e : Bool) (side : Bool) (x : Bool) : TableRow.Statement (.fdcWriteTrack y e side x) := by
  unfold TableRow.Statement
  revert y e side x; decide
theorem TableRow.nvRd (off : Nat) (sz : AccSize) : TableRow.Statement (.nvRd off sz) := rfl
theorem TableRow.nvWr (off : Nat) (sz : AccSize) (v : Word) : TableRow.Statement (.nvWr off sz v) := rfl

end Sys2Proof.Laws
end

