-- ==== Sys2Proof/Laws/Uart.lean ====
section
/-! SUPPORT. For each procedure of the UART, once, the bits and fields it leaves (R161 to R169, R210, R211). -/

namespace Sys2Proof.Machine

/-- A recompute writes the CSR and the history, and no other field (R161). -/
theorem State.recompute_frame (s : State) :
    s.recompute = { s with csr := s.recompute.csr, history := s.recompute.history } := by
  unfold State.recompute; split <;> rfl

/-! ## Mode registers (R163) -/

@[simp] theorem UartPort.storeMode_modePtr (q : UartPort) (b : Byte) : (q.storeMode b).modePtr = q.modePtr := by
  unfold UartPort.storeMode; split <;> rfl
@[simp] theorem UartPort.storeMode_cmd (q : UartPort) (b : Byte) : (q.storeMode b).cmd = q.cmd := by
  unfold UartPort.storeMode; split <;> rfl
@[simp] theorem UartPort.storeMode_status (q : UartPort) (b : Byte) : (q.storeMode b).status = q.status := by
  unfold UartPort.storeMode; split <;> rfl
@[simp] theorem UartPort.storeMode_rxbuf (q : UartPort) (b : Byte) : (q.storeMode b).rxbuf = q.rxbuf := by
  unfold UartPort.storeMode; split <;> rfl
@[simp] theorem UartPort.storeMode_txbuf (q : UartPort) (b : Byte) : (q.storeMode b).txbuf = q.txbuf := by
  unfold UartPort.storeMode; split <;> rfl
@[simp] theorem UartPort.storeMode_txEn (q : UartPort) (b : Byte) : (q.storeMode b).txEn = q.txEn := by
  unfold UartPort.storeMode; split <;> rfl
@[simp] theorem UartPort.storeMode_rxEn (q : UartPort) (b : Byte) : (q.storeMode b).rxEn = q.rxEn := by
  unfold UartPort.storeMode; split <;> rfl
@[simp] theorem UartPort.storeMode_mode0 (q : UartPort) (b : Byte) :
    (q.storeMode b).mode0 = if q.modePtr = 0 then b else q.mode0 := by
  unfold UartPort.storeMode; split <;> rfl
@[simp] theorem UartPort.storeMode_mode1 (q : UartPort) (b : Byte) :
    (q.storeMode b).mode1 = if q.modePtr = 0 then q.mode1 else b := by
  unfold UartPort.storeMode; split <;> rfl

/-! ## Transmit status (R162) -/

/-- Each port's transmit status follows its own enable. -/
theorem Uart.txStatus_port (u : Uart) (p : Port) : u.txStatus.port p = (u.port p).txStatus := by
  cases p <;> rfl

/-- TXR and TXE become the enable, every other status bit is kept. -/
theorem UartPort.txStatus_getLsbD (q : UartPort) (j : Nat) (hj : j < 8) :
    q.txStatus.status.getLsbD j = if j = 2 ∨ j = 3 then q.txEn else q.status.getLsbD j := by
  simp only [UartPort.txStatus, setBit_getLsbD, txrBit, txeBit]
  by_cases h3 : j = 3 <;> by_cases h2 : j = 2 <;> simp [hj, h2, h3, eq_comm (b := j)]

/-- The two transmit istat bits become the enables, every other istat bit is kept. -/
theorem Uart.txStatus_istat (u : Uart) (j : Nat) (hj : j < 8) :
    u.txStatus.istat.getLsbD j =
      if j = 0 then u.a.txEn else if j = 4 then u.b.txEn else u.istat.getLsbD j := by
  simp only [Uart.txStatus, setBit_getLsbD, txBit]
  by_cases h0 : j = 0 <;> by_cases h4 : j = 4 <;> simp_all [eq_comm (b := j)]

/-! ## Receive path (R169) -/

/-- A delivered byte touches one port and its istat bit, and no other field. -/
theorem Uart.deliverTo_frame (u : Uart) (c : Byte) (p : Port) :
    u.deliverTo c p = { u with a := (u.deliverTo c p).a, b := (u.deliverTo c p).b,
                               istat := (u.deliverTo c p).istat } := by
  unfold Uart.deliverTo
  split
  · split
    · rfl
    · cases p <;> rfl
  · cases p <;> rfl

/-- The port the byte does not go to is left alone. -/
theorem Uart.deliverTo_other (u : Uart) (c : Byte) (p r : Port) (h : r ≠ p) :
    (u.deliverTo c p).port r = u.port r := by
  unfold Uart.deliverTo
  split
  · split
    · rfl
    · cases p <;> cases r <;> first | rfl | exact absurd rfl h
  · cases p <;> cases r <;> first | rfl | exact absurd rfl h

/-- The port the byte goes to: the byte is taken where the receiver is enabled and RXR clear; RXR follows the
enable. -/
theorem Uart.deliverTo_same (u : Uart) (c : Byte) (p : Port) :
    (u.deliverTo c p).port p =
      { u.port p with
        status := ((u.deliverTo c p).port p).status
        rxbuf := if (u.port p).rxEn && !(u.port p).status.getLsbD rxrBit then c else (u.port p).rxbuf } := by
  unfold Uart.deliverTo
  split
  · rename_i h
    split
    · rename_i h2
      rw [h2]
      simp
    · rename_i h2
      rw [h, Bool.eq_false_iff.2 h2]
      cases p <;> rfl
  · rename_i h
    rw [Bool.eq_false_iff.2 h]
    cases p <;> rfl

/-! ## The tick (R210, R211) -/

/-- What a counter tick can do: nothing, count, or expire. -/
theorem counterTick_cases (s : State) :
    (s.uart.counterEnabled = false ∧ counterTick s = s) ∨
    (s.uart.counterEnabled = true ∧ s.params.uartCtrStep < s.uart.counterValue.toNat ∧
      counterTick s =
        s.withUart { s.uart with counterValue := s.uart.counterValue - BitVec.ofNat 16 s.params.uartCtrStep }) ∨
    (s.uart.counterEnabled = true ∧ s.uart.counterValue.toNat ≤ s.params.uartCtrStep ∧
      counterTick s =
        (s.withUart { s.uart with
          istat := setBit s.uart.istat criBit true
          counterValue := s.uart.counterSet
          counterEnabled := false }).recompute) := by
  unfold counterTick
  split
  · split
    · exact .inr (.inr ⟨‹_›, ‹_›, rfl⟩)
    · exact .inr (.inl ⟨‹_›, by omega, rfl⟩)
  · rename_i h
    exact .inl ⟨Bool.eq_false_iff.2 h, rfl⟩

/-- What a poll can do: nothing offered, the character lost, the character delivered. -/
theorem poll_cases (s : State) :
    (s.inputs.kbd = none ∧ poll s = s) ∨
    (∃ c, s.inputs.kbd = some c ∧ s.uart.a.rxEn = false ∧
      poll s = { s with inputs := { s.inputs with kbd := none } }) ∨
    (∃ c, s.inputs.kbd = some c ∧ s.uart.a.rxEn = true ∧
      poll s = rxDeliver c { s with inputs := { s.inputs with kbd := none } }) := by
  unfold poll
  cases hk : s.inputs.kbd with
  | none =>
    refine .inl ⟨rfl, ?_⟩
    have : ({ s.inputs with kbd := none } : Inputs) = s.inputs := by rw [← hk]
    simp [this]
  | some c =>
    by_cases h : s.uart.a.rxEn = true
    · exact .inr (.inr ⟨c, rfl, h, by simp [h]⟩)
    · exact .inr (.inl ⟨c, rfl, Bool.eq_false_iff.2 h, by simp [h]⟩)

/-- A UART tick writes no device but the UART and the CSR, and no parameter. -/
theorem serviceUart_frame (s : State) :
    (serviceUart s).tmr = s.tmr ∧ (serviceUart s).fdc = s.fdc ∧ (serviceUart s).nv = s.nv ∧
      (serviceUart s).params = s.params := by
  have h : ∀ t : State, (poll t).tmr = t.tmr ∧ (poll t).fdc = t.fdc ∧ (poll t).nv = t.nv ∧
      (poll t).params = t.params := by
    intro t
    rcases poll_cases t with ⟨_, e⟩ | ⟨_, _, _, e⟩ | ⟨_, _, _, e⟩ <;> rw [e] <;> simp
  unfold serviceUart
  obtain ⟨h1, h2, h3, h4⟩ := h (counterTick s)
  rw [h1, h2, h3, h4]
  rcases counterTick_cases s with ⟨_, e⟩ | ⟨_, _, e⟩ | ⟨_, _, e⟩ <;> rw [e] <;> simp [State.withUart]

/-- A command byte writes the UART, the CSR and the history (R166). -/
theorem commandWith_frame (p : Port) (b : Byte) (effect : Port → Uart → Uart) (s : State) :
    (commandWith p b effect s).tmr = s.tmr ∧ (commandWith p b effect s).fdc = s.fdc ∧
      (commandWith p b effect s).nv = s.nv ∧ (commandWith p b effect s).params = s.params := by
  unfold commandWith; simp

/-- A transmit write writes the UART, the CSR and the history (R167). -/
theorem txWrite_frame (p : Port) (b : Byte) (s : State) :
    (txWrite p b s).tmr = s.tmr ∧ (txWrite p b s).fdc = s.fdc ∧ (txWrite p b s).nv = s.nv ∧
      (txWrite p b s).params = s.params := by
  unfold txWrite; simp only []; split <;> simp

end Sys2Proof.Machine
end

