-- ==== Sys2Proof/Laws/Steps.lean ====
section
/-! SUPPORT. Runs of the machine, the timer's tick, and the one principle by which a relation holds over every
step. -/

namespace Sys2Proof.Machine

/-- A run of no step. -/
theorem run_zero (s : State) : Sys2Proof.core.run 0 s = .next s := rfl

/-- A run's first step. -/
theorem run_succ (k : Nat) (s t : State) (h : step s = .next t) :
    Sys2Proof.core.run (k + 1) s = Sys2Proof.core.run k t := by
  simp only [Host.Core.run]
  have e : Sys2Proof.core.step s = .next t := h
  rw [e]

/-- A run of one step is the step. -/
theorem run_one (s : State) : Sys2Proof.core.run 1 s = step s := by
  simp only [Host.Core.run]
  have e : Sys2Proof.core.step s = step s := rfl
  cases h : step s <;> rw [e, h] <;> rfl

/-- One channel's tick: the divider is kept, the counter is reloaded or drops by one (R145). -/
theorem TmrChannel.tick_spec (c : TmrChannel) :
    c.tick.divider = c.divider ∧
      c.tick.counter.toNat = if c.counter.toNat ≤ 1 then c.divider.toNat else c.counter.toNat - 1 := by
  unfold TmrChannel.tick
  split
  · simp [*]
  · have := c.counter.isLt
    simp [*]
    omega

/-- A relation that the issue of an operation, each meaning and each platform operation give holds of every step. -/
theorem step_relation (P : State → State → Prop)
    (start : ∀ s rest t, P (s.start rest) t → P s t)
    (refl : ∀ s, P s s)
    (answer : ∀ s r, P s (s.answer r))
    (meaning : ∀ i s t, exec i s = .next t → P s t)
    (timer : ∀ s, P s (serviceTmr s))
    (uart : ∀ s, P s (serviceUart s))
    (latency : ∀ s n, s.fdc.phase = .exec n → 1 < n → P s (s.withFdc { s.fdc with phase := .exec (n - 1) }))
    (reset : ∀ s d t, runReset d s = .next t → P s t)
    (ack : ∀ s, P s (fdcDrqAck s))
    (late : ∀ s, P s (fdcDataLate s))
    (load : ∀ s image, image.length = s.params.nvramSize → P s (s.withBytes (Memory.ofImage 0 image)))
    (input : ∀ s i, P s { s with inputs := i })
    (s t : State) (h : step s = .next t) : P s t := by
  have access : ∀ a s t, runAccess a s = .next t → P s t := by
    intro a s t h
    unfold runAccess at h
    split at h
    · exact meaning _ _ _ h
    · cases h
      unfold unmapped
      split
      · split
        · exact refl _
        · exact answer _ _
      all_goals exact refl _
  rw [step] at h
  cases hp : s.pending with
  | nil => rw [hp] at h; cases h; exact refl _
  | cons op rest =>
    rw [hp] at h
    apply start s rest
    cases op with
    | access a => exact access _ _ _ h
    | phys dir pa sz v =>
      simp only [runOp, runPhys] at h
      split at h
      · exact access _ _ _ h
      · cases h; exact refl _
    | service d =>
      cases d
      case fdc =>
        simp only [runOp, runService, serviceFdc] at h
        split at h
        · split at h
          · cases h; exact latency _ _ ‹_› ‹_›
          · exact meaning _ _ _ h
        · cases h; exact refl _
        · cases h; exact refl _
      case tmr => cases h; exact timer _
      case uart => cases h; exact uart _
      all_goals cases h; exact refl _
    | reset d => exact reset _ _ _ h
    | fdcDrqAck => cases h; exact ack _
    | fdcDataLate => cases h; exact late _
    | nvLoad image =>
      simp only [runOp, nvLoad] at h
      split at h
      · cases h
      · split at h
        · cases h
        · rename_i hl; cases h; exact load _ _ (by simpa using hl)
    | nvSave =>
      simp only [runOp, nvSave] at h
      split at h
      · cases h
      · cases h; exact answer _ _
    | kbd a => cases h; exact input _ _
    | input a b => cases h; exact input _ _

end Sys2Proof.Machine
end

