-- ==== Sys2Proof/Tests/Slice0.lean ====
section
/-! SUPPORT. The model's own tests: decoding of words written from R91 to R97, ill-formed operations, one step at a
time of the vectors of spec/95_test_vectors.md (E, V and P numbers are that file's), and for each statement that
has hypotheses a state that meets them. -/

namespace Sys2Proof.Tests

open Sys2Proof.Machine Sys2Proof.Claims

/-! ## Helpers -/

/-- The parameters of spec/95_test_vectors.md, with bases and an interrupt of our own. -/
def params : Config.Params :=
  { uartBase := 0x1000, timerBase := 0x2000, csrBase := 0x3000, fdcBase := 0x4000, nvramBase := 0x8000,
    nvramSize := 2048, uartCtrStepPred := 0, fdcLatencyPred := 0, uartIrqVector := 13, uartIrqPriority := 5 }

/-- The vectors' start: after `reset all`, drive ready, INDEX draws 0. -/
def start : State :=
  { State.resetWith params with inputs := { Inputs.initial with fdcReady := true, draws := [0, 0] } }

/-- Power-on with the other devices at values that no reset leaves. -/
def powered : State :=
  State.powerOn params { bits := 0xFFFF } { c0 := .load 7, c1 := .load 8, c2 := .load 9 } { Uart.reset with imask := 0xFF }
    { Fdc.reset with track := 5 }

/-- The start with some operations issued. -/
def issued (ops : List Op) : State := { start with pending := ops }

/-- The state a step went on to, if it did. -/
def goes (r : Result) : Option State :=
  match r with
  | .next s => some s
  | .fault _ => none
  | .refused _ => none

/-- The fault a step stopped with, if it did. -/
def fails (r : Result) : Option Fault :=
  match r with
  | .next _ => none
  | .fault f => some f
  | .refused _ => none

/-- What an operation returned. -/
def got (r : Result) : Option Returned := (goes r).bind (·.returned)

/-- An 8-bit answer. -/
def byte (v : BitVec 8) : Option Returned := some (.bus (.b8 v))

/-- A 16-bit answer. -/
def half (v : BitVec 16) : Option Returned := some (.bus (.b16 v))

/-- A 32-bit answer. -/
def word (v : BitVec 32) : Option Returned := some (.bus (.b32 v))

/-- The start with CSR bits. -/
def csrIs (v : Half) : State := { start with csr := { bits := v } }

/-- The start with a UART made from the reset one. -/
def uartIs (f : Uart → Uart) : State := { start with uart := f start.uart }

/-- The start with a floppy controller made from the reset one. -/
def fdcIs (f : Fdc → Fdc) : State := { start with fdc := f start.fdc }

/-- The start with a controller about to execute the command byte b. -/
def executing (b : Byte) (f : Fdc → Fdc) : State := fdcIs fun d => f (d.accept b 1)

/-- A controller waiting for DRQ in a Type II command b. -/
def waiting (b : Byte) (f : Fdc → Fdc) : State :=
  executing b fun d => f { d with
    phase := .waitDrq, drq := true, xfer := some { dir := .toHost, source := .image, offset := 0, length := 512 } }

/-- The `Irq` event of the parameters. -/
def irq : OutEvent := .irq 13 5

/-- A UART tick of an enabled counter with preset and value, CRI unmasked. -/
def serviced (preset value : Half) : Result :=
  step { uartIs (fun u => { u with counterEnabled := true, counterSet := preset, counterValue := value, imask := 8 }) with
    pending := [.service .uart] }

/-- A UART tick with a character offered. -/
def received (c : Byte) (f : Uart → Uart) : Result :=
  step { uartIs f with inputs := { start.inputs with kbd := some c }, pending := [.service .uart] }

/-! ## Decoding: words written from R91 to R97 -/

/-- R91: sel 0x00 to 0x0F, at the three sizes in turn. -/
theorem test_decode_uart_reads :
    decode (.bus .uart 0x00 .w8 0) = .instr (.uartRdMra .w8) ∧
    decode (.bus .uart 0x01 .w16 0) = .instr (.uartRdSra .w16) ∧
    decode (.bus .uart 0x02 .w32 0) = .instr (.uartRdRsv2 .w32) ∧
    decode (.bus .uart 0x03 .w8 0) = .instr (.uartRdRhra .w8) ∧
    decode (.bus .uart 0x04 .w16 0) = .instr (.uartRdIpcr .w16) ∧
    decode (.bus .uart 0x05 .w32 0) = .instr (.uartRdIsr .w32) ∧
    decode (.bus .uart 0x06 .w8 0) = .instr (.uartRdCtu .w8) ∧
    decode (.bus .uart 0x07 .w16 0) = .instr (.uartRdCtl .w16) ∧
    decode (.bus .uart 0x08 .w32 0) = .instr (.uartRdMrb .w32) ∧
    decode (.bus .uart 0x09 .w8 0) = .instr (.uartRdSrb .w8) ∧
    decode (.bus .uart 0x0A .w16 0) = .instr (.uartRdRsv10 .w16) ∧
    decode (.bus .uart 0x0B .w32 0) = .instr (.uartRdRhrb .w32) ∧
    decode (.bus .uart 0x0C .w8 0) = .instr (.uartRdRsv12 .w8) ∧
    decode (.bus .uart 0x0D .w16 0) = .instr (.uartRdRsv13 .w16) ∧
    decode (.bus .uart 0x0E .w32 0) = .instr (.uartRdStart .w32) ∧
    decode (.bus .uart 0x0F .w8 0) = .instr (.uartRdStop .w8) := by
  decide

/-- R91: sel 0x80 to 0x8F. -/
theorem test_decode_uart_writes :
    decode (.bus .uart 0x80 .w8 0xA0) = .instr (.uartWrMra .w8 0xA0) ∧
    decode (.bus .uart 0x81 .w8 0xA1) = .instr (.uartWrCsra .w8 0xA1) ∧
    decode (.bus .uart 0x82 .w8 0xA2) = .instr (.uartWrCra .w8 0xA2) ∧
    decode (.bus .uart 0x83 .w8 0xA3) = .instr (.uartWrThra .w8 0xA3) ∧
    decode (.bus .uart 0x84 .w8 0xA4) = .instr (.uartWrAcr .w8 0xA4) ∧
    decode (.bus .uart 0x85 .w8 0xA5) = .instr (.uartWrImr .w8 0xA5) ∧
    decode (.bus .uart 0x86 .w8 0xA6) = .instr (.uartWrCtur .w8 0xA6) ∧
    decode (.bus .uart 0x87 .w8 0xA7) = .instr (.uartWrCtlr .w8 0xA7) ∧
    decode (.bus .uart 0x88 .w8 0xA8) = .instr (.uartWrMrb .w8 0xA8) ∧
    decode (.bus .uart 0x89 .w8 0xA9) = .instr (.uartWrCsrb .w8 0xA9) ∧
    decode (.bus .uart 0x8A .w8 0xAA) = .instr (.uartWrCrb .w8 0xAA) ∧
    decode (.bus .uart 0x8B .w8 0xAB) = .instr (.uartWrThrb .w8 0xAB) ∧
    decode (.bus .uart 0x8C .w8 0xAC) = .instr (.uartWrRsv12 .w8 0xAC) ∧
    decode (.bus .uart 0x8D .w8 0xAD) = .instr (.uartWrRsv13 .w8 0xAD) ∧
    decode (.bus .uart 0x8E .w8 0xAE) = .instr (.uartWrSopr .w8 0xAE) ∧
    decode (.bus .uart 0x8F .w8 0xAF) = .instr (.uartWrRopr .w8 0xAF) := by
  decide

/-- R96: x, MISC, T, t, R, r from bit 7 down, one bit set besides MISC in each word. -/
theorem test_decode_uart_commands :
    decode (.uartCmd .a 0x80) = .instr (.uartCmdMisc0 .a true false false false false) ∧
    decode (.uartCmd .b 0x18) = .instr (.uartCmdMisc1 .b false true false false false) ∧
    decode (.uartCmd .a 0x24) = .instr (.uartCmdMisc2 .a false false true false false) ∧
    decode (.uartCmd .b 0x32) = .instr (.uartCmdMisc3 .b false false false true false) ∧
    decode (.uartCmd .a 0x41) = .instr (.uartCmdMisc4 .a false false false false true) ∧
    decode (.uartCmd .b 0x50) = .instr (.uartCmdMisc5 .b false false false false false) ∧
    decode (.uartCmd .a 0x6F) = .instr (.uartCmdMisc6 .a false true true true true) ∧
    decode (.uartCmd .b 0xF0) = .instr (.uartCmdMisc7 .b true false false false false) := by
  decide

/-- R92: channels 0 to 2 and the control offset 3. -/
theorem test_decode_timer :
    decode (.bus .tmr 0x00 .w16 0) = .instr (.tmrRdC0 .w16) ∧
    decode (.bus .tmr 0x01 .w16 0) = .instr (.tmrRdC1 .w16) ∧
    decode (.bus .tmr 0x02 .w16 0) = .instr (.tmrRdC2 .w16) ∧
    decode (.bus .tmr 0x03 .w16 0) = .instr (.tmrRdCtl .w16) ∧
    decode (.bus .tmr 0x80 .w16 0x1234) = .instr (.tmrWrC0 .w16 0x1234) ∧
    decode (.bus .tmr 0x81 .w16 0x1234) = .instr (.tmrWrC1 .w16 0x1234) ∧
    decode (.bus .tmr 0x82 .w16 0x1234) = .instr (.tmrWrC2 .w16 0x1234) ∧
    decode (.bus .tmr 0x83 .w16 0x1234) = .instr (.tmrWrCtl .w16 0x1234) := by
  decide

/-- R93: `dwkkkk11` names a cause, the other three low patterns none. 0x4B is cause 2 in the set window. -/
theorem test_decode_csr :
    decode (.bus .csr 0x4B .w8 0) = .instr (.csrRd true 2 .w8) ∧
    decode (.bus .csr 0x3F .w8 0) = .instr (.csrRd false 15 .w8) ∧
    decode (.bus .csr 0x0C .w8 0) = .instr (.csrRdNop0 3 .w8) ∧
    decode (.bus .csr 0x41 .w8 0) = .instr (.csrRdNop1 16 .w8) ∧
    decode (.bus .csr 0x7E .w8 0) = .instr (.csrRdNop2 31 .w8) ∧
    decode (.bus .csr 0x8F .w8 0xFF) = .instr (.csrClr 3 .w8 0xFF) ∧
    decode (.bus .csr 0xFF .w32 0) = .instr (.csrSet 15 .w32 0) ∧
    decode (.bus .csr 0xCC .w8 1) = .instr (.csrWrNop0 19 .w8 1) ∧
    decode (.bus .csr 0x81 .w8 1) = .instr (.csrWrNop1 0 .w8 1) ∧
    decode (.bus .csr 0xFE .w8 1) = .instr (.csrWrNop2 31 .w8 1) := by
  decide

/-- R94. -/
theorem test_decode_fdc_registers :
    decode (.bus .fdc 0x00 .w8 0) = .instr (.fdcRdStatus .w8) ∧
    decode (.bus .fdc 0x01 .w8 0) = .instr (.fdcRdTrack .w8) ∧
    decode (.bus .fdc 0x02 .w8 0) = .instr (.fdcRdSector .w8) ∧
    decode (.bus .fdc 0x03 .w8 0) = .instr (.fdcRdData .w8) ∧
    decode (.bus .fdc 0x80 .w8 0x50) = .instr (.fdcWrCmd .w8 0x50) ∧
    decode (.bus .fdc 0x81 .w8 0x51) = .instr (.fdcWrTrack .w8 0x51) ∧
    decode (.bus .fdc 0x82 .w8 0x52) = .instr (.fdcWrSector .w8 0x52) ∧
    decode (.bus .fdc 0x83 .w8 0x53) = .instr (.fdcWrData .w8 0x53) := by
  decide

/-- R97: each row's letters read from their bits. -/
theorem test_decode_fdc_commands :
    decode (.fdcCmd 0x0B) = .instr (.fdcRestore true false 3) ∧
    decode (.fdcCmd 0x16) = .instr (.fdcSeek false true 2) ∧
    decode (.fdcCmd 0x29) = .instr (.fdcStep false true false 1) ∧
    decode (.fdcCmd 0x34) = .instr (.fdcStep true false true 0) ∧
    decode (.fdcCmd 0x44) = .instr (.fdcStepIn false false true 0) ∧
    decode (.fdcCmd 0x5A) = .instr (.fdcStepIn true true false 2) ∧
    decode (.fdcCmd 0x63) = .instr (.fdcStepOut false false false 3) ∧
    decode (.fdcCmd 0x70) = .instr (.fdcStepOut true false false 0) ∧
    decode (.fdcCmd 0x88) = .instr (.fdcReadSec true false false false) ∧
    decode (.fdcCmd 0x94) = .instr (.fdcReadSecMulti false true false false) ∧
    decode (.fdcCmd 0xA2) = .instr (.fdcWriteSec false false true false) ∧
    decode (.fdcCmd 0xB1) = .instr (.fdcWriteSecMulti false false false true) ∧
    decode (.fdcCmd 0xC6) = .instr (.fdcReadAddress false true true false) ∧
    decode (.fdcCmd 0xD8) = .instr (.fdcForceInterrupt 8) ∧
    decode (.fdcCmd 0xE2) = .instr (.fdcReadTrack false false true false) ∧
    decode (.fdcCmd 0xFC) = .instr (.fdcWriteTrack true true false false) := by
  decide

/-- R95: the direction bit alone, the offset beside it. -/
theorem test_decode_nvram :
    decode (.nv 0x00 0x11 .w16 0) = .instr (.nvRd 0x11 .w16) ∧
    decode (.nv 0x80 0x10 .w32 0xCAFEF00D) = .instr (.nvWr 0x10 .w32 0xCAFEF00D) ∧
    decode (.nv 0x7F 2047 .w8 0) = .instr (.nvRd 2047 .w8) := by
  decide

/-- R71: offset 16 of the UART and offset 4 of the timer and the FDC lie outside. -/
theorem test_decode_outside :
    decode (.bus .uart 0x10 .w8 0) = .rejected (.outsideWindow .uart 16) ∧
    decode (.bus .tmr 0x84 .w8 0) = .rejected (.outsideWindow .tmr 4) ∧
    decode (.bus .fdc 0xFF .w8 0) = .rejected (.outsideWindow .fdc 127) := by
  decide

/-- The table's words: 0x82 is UART.WR.CRA's, 0xCF CSR.SET's, 0xE2 FDC.READ_TRACK's, 0x30 a MISC 3 byte's (log 7). -/
theorem test_table_words :
    decodeTableWord 8 0x82 = some (.uartWrCra .w8 0) ∧ decodeTableWord 8 0xCF = some (.csrSet 3 .w8 0) ∧
    decodeTableWord 8 0xE2 = some (.fdcReadTrack false false true false) ∧
    decodeTableWord 8 0x30 = some (.uartCmdMisc3 .a false false false false false) := by
  decide

/-- A placed word is the very next thing that runs, from the reset state: an ETX command at port A (log 21). -/
theorem test_fetch_word :
    (goes (step (State.withFetchWord start 8 0x74))).map (·.uart.a.txEn) = some true ∧
    (goes (step (State.withFetchWord start 8 0x70))).map (·.uart.a.cmd) = some 0x70 ∧
    (goes (step (State.withFetchWord start 8 0x10))).map (·.fdc.cmd) = some 0x10 ∧
    (goes (step (State.withFetchWord start 8 0x10))).map (·.fdc.phase) = some .idle := by
  decide

/-! ## Ill-formed operations: a value that does not fit its size (R9, R74) -/

/-- One more than the largest value of the size. -/
theorem test_ill_formed_uart_writes :
    [.uartWrMra .w8 0x100, .uartWrCsra .w16 0x10000, .uartWrCra .w8 0x100, .uartWrThra .w16 0x10000,
      .uartWrAcr .w8 0x100, .uartWrImr .w16 0x10000, .uartWrCtur .w8 0x100, .uartWrCtlr .w16 0x10000,
      .uartWrMrb .w8 0x100, .uartWrCsrb .w16 0x10000, .uartWrCrb .w8 0x100, .uartWrThrb .w16 0x10000,
      .uartWrRsv12 .w8 0x100, .uartWrRsv13 .w16 0x10000, .uartWrSopr .w8 0x100, .uartWrRopr .w16 0x10000].all (fun i : Instr => !i.wellFormed) = true := by
  decide

/-- The timer, the CSR, the FDC and the NVRAM. -/
theorem test_ill_formed_other_writes :
    [.tmrWrC0 .w8 0x100, .tmrWrC1 .w16 0x10000, .tmrWrC2 .w8 0x1FF, .tmrWrCtl .w8 0x100,
      .csrClr 3 .w8 0x100, .csrSet 3 .w16 0x10000, .csrWrNop0 0 .w8 0x100, .csrWrNop1 0 .w8 0x100,
      .csrWrNop2 0 .w8 0x100, .fdcWrCmd .w8 0x100, .fdcWrTrack .w8 0x100, .fdcWrSector .w16 0x10000,
      .fdcWrData .w8 0x100, .nvWr 0 .w8 0x100, .nvWr 0 .w16 0x10000].all (fun i : Instr => !i.wellFormed) = true := by
  decide

/-! ## Vectors, one step each -/

/-- V1. -/
theorem test_csr_set :
    (goes (exec (.csrSet 15 .w32 0) start)).map (·.csr.bits) = some 0x8000 := by
  decide

/-- V4. -/
theorem test_csr_clr :
    (goes (exec (.csrClr 3 .w8 0xFF) (csrIs 0x800C))).map (·.csr.bits) = some 0x8004 := by
  decide

/-- V3, V6. -/
theorem test_csr_rd :
    got (exec (.csrRd false 3 .w8) (csrIs 0x800C)) = byte 1 ∧
    got (exec (.csrRd true 3 .w32) (csrIs 0x800C)) = word 1 ∧
    got (exec (.csrRd false 14 .w8) (csrIs 0x800C)) = byte 0 := by
  decide

/-- V3, V5 (R122, R126). -/
theorem test_csr_nops :
    got (exec (.csrRdNop0 3 .w8) (csrIs 0x800C)) = byte 0 ∧
    got (exec (.csrRdNop1 3 .w8) (csrIs 0xFFFF)) = byte 0 ∧
    got (exec (.csrRdNop2 3 .w8) (csrIs 0xFFFF)) = byte 0 ∧
    goes (exec (.csrWrNop0 19 .w8 1) (csrIs 0x8004)) = some (csrIs 0x8004) ∧
    goes (exec (.csrWrNop1 19 .w8 1) (csrIs 0x8004)) = some (csrIs 0x8004) ∧
    goes (exec (.csrWrNop2 19 .w8 1) (csrIs 0x8004)) = some (csrIs 0x8004) := by
  decide

/-- V10: the low byte, zero-extended. -/
theorem test_tmr_read :
    got (exec (.tmrRdC1 .w16) { start with tmr := { start.tmr with c1 := .load 0x0102 } }) = half 0x0002 := by
  decide

/-- Each read names its own channel. -/
theorem test_tmr_read_each :
    got (exec (.tmrRdC0 .w8) { start with tmr := { c0 := .load 7, c1 := .load 8, c2 := .load 9 } }) = byte 7 ∧
    got (exec (.tmrRdC2 .w8) { start with tmr := { c0 := .load 7, c1 := .load 8, c2 := .load 9 } }) = byte 9 := by
  decide

/-- V13, V16: divider and counter, the value's low 16 bits. -/
theorem test_tmr_write :
    (goes (exec (.tmrWrC0 .w32 0x12345) start)).map (·.tmr.c0) = some { divider := 0x2345, counter := 0x2345 } ∧
    (goes (exec (.tmrWrC1 .w16 0x0102) start)).map (·.tmr.c1) = some { divider := 0x0102, counter := 0x0102 } ∧
    (goes (exec (.tmrWrC2 .w8 0xFF) start)).map (·.tmr) = some { start.tmr with c2 := .load 0xFF } := by
  decide

/-- V17. -/
theorem test_tmr_control :
    got (exec (.tmrRdCtl .w8) start) = byte 0 ∧
    goes (exec (.tmrWrCtl .w8 0x36) start) = some start := by
  decide

/-- V12, V14, V15: 0xFFFF drops to 0xFFFE, 1 reloads to its divider, a divider of 0 stays 0. -/
theorem test_tmr_tick :
    (goes (step { issued [.service .tmr] with tmr := { c0 := .load 0xFFFF, c1 := { divider := 3, counter := 1 }, c2 := .load 0 } })).map
      (fun s => [s.tmr.c0.counter, s.tmr.c1.counter, s.tmr.c2.counter]) = some [0xFFFE, 3, 0] := by
  decide

/-- E3: mode[0] at cursor 0, mode[1] at cursor 1. -/
theorem test_uart_mode_write :
    (goes (exec (.uartWrMra .w8 0x13) start)).map (fun s => (s.uart.a.mode0, s.uart.a.modePtr)) = some (0x13, 1) ∧
    (goes (exec (.uartWrMrb .w8 0x07) (uartIs fun u => { u with b := { u.b with modePtr := 1 } }))).map
      (fun s => (s.uart.b.mode0, s.uart.b.mode1, s.uart.b.modePtr)) = some (0, 0x07, 0) := by
  decide

/-- E3. -/
theorem test_uart_mode_read :
    got (exec (.uartRdMra .w8) (uartIs fun u => { u with a := { u.a with mode0 := 0x13, mode1 := 0x07 } })) = byte 0x13 ∧
    got (exec (.uartRdMrb .w8) (uartIs fun u => { u with b := { u.b with mode0 := 0x13, mode1 := 0x07, modePtr := 1 } })) = byte 0x07 := by
  decide

/-- V32: the old status, then RXR and RAI and the cause are cleared. -/
theorem test_uart_status_read :
    got (exec (.uartRdSra .w8) (uartIs fun u => { u with a := { u.a with status := 0x01 }, istat := 0x02 })) = byte 0x01 ∧
    (goes (exec (.uartRdSra .w8) { uartIs (fun u => { u with a := { u.a with status := 0x01 }, istat := 0x02, imask := 0x22 }) with csr := { bits := 0x0008 } })).map
      (fun s => (s.uart.a.status, s.uart.istat, s.csr.bits)) = some (0, 0, 0) := by
  decide

/-- V31: RBI is cleared, the cause stays for RAI, and an event is emitted (R351). -/
theorem test_uart_status_read_b :
    (goes (exec (.uartRdSrb .w8) { uartIs (fun u => { u with b := { u.b with status := 0x01 }, istat := 0x22, imask := 0x22 }) with csr := { bits := 0x0008 } })).map
      (fun s => (s.uart.b.status, s.uart.istat, s.csr.bits, s.history)) = some (0, 0x02, 0x0008, [irq]) := by
  decide

/-- V27, V28, V29. -/
theorem test_uart_receive_read :
    got (exec (.uartRdRhra .w32) (uartIs fun u => { u with a := { u.a with status := 0x0D, rxbuf := 0x5A } })) = word 0x00000D5A ∧
    got (exec (.uartRdRhra .w8) (uartIs fun u => { u with a := { u.a with status := 0x0C, rxbuf := 0x5A } })) = byte 0x5A ∧
    (goes (exec (.uartRdRhra .w16) (uartIs fun u => { u with a := { u.a with status := 0x0D, rxbuf := 0x41 } }))).map
      (fun s => (s.uart.a.status, s.uart.a.rxbuf)) = some (0x0C, 0x41) := by
  decide

/-- R165, R189: port B's own byte and its own istat bit. -/
theorem test_uart_receive_read_b :
    got (exec (.uartRdRhrb .w16) (uartIs fun u => { u with b := { u.b with status := 0x01, rxbuf := 0x31 }, istat := 0x22 })) = half 0x0131 ∧
    (goes (exec (.uartRdRhrb .w16) (uartIs fun u => { u with b := { u.b with status := 0x01, rxbuf := 0x31 }, istat := 0x22 }))).map (·.uart.istat) = some 0x02 := by
  decide

/-- V42 (R180, R182, R184, R185, R188, R190, R191). -/
theorem test_uart_zero_reads :
    [Instr.uartRdRsv2 .w8, .uartRdIpcr .w8, .uartRdCtu .w8, .uartRdCtl .w8, .uartRdRsv10 .w8, .uartRdRsv12 .w8,
      .uartRdRsv13 .w8].all (fun i => got (exec i (uartIs fun u => { u with counterValue := 0xFFFF, istat := 0xFF })) == byte 0) = true := by
  decide

/-- V20: every istat bit, masked or not. -/
theorem test_uart_isr_read :
    got (exec (.uartRdIsr .w8) (uartIs fun u => { u with istat := 0x11 })) = byte 0x11 := by
  decide

/-- V37, V38: START only enables; STOP clears CRI and the cause. -/
theorem test_uart_start_stop :
    (goes (exec (.uartRdStart .w8) (uartIs fun u => { u with counterSet := 3, counterValue := 2 }))).map
      (fun s => (s.uart.counterEnabled, s.uart.counterValue, s.returned)) = some (true, 2, byte 0) ∧
    (goes (exec (.uartRdStop .w8) { uartIs (fun u => { u with istat := 0x08, imask := 0x08, counterEnabled := true }) with csr := { bits := 8 } })).map
      (fun s => (s.uart.counterEnabled, s.uart.istat, s.csr.bits, s.returned)) = some (false, 0, 0, byte 0) := by
  decide

/-- V19, V23: ETX and ERX; ETX wins over DTX. -/
theorem test_uart_command_write :
    (goes (exec (.uartWrCra .w8 0x05) start)).map (fun s => (s.uart.a.txEn, s.uart.a.rxEn, s.uart.a.status, s.uart.istat)) =
      some (true, true, 0x0C, 0x01) ∧
    (goes (exec (.uartWrCra .w8 0x05) start)).map (fun s => (s.csr.bits, s.history)) = some (0, []) ∧
    (goes (exec (.uartWrCra .w8 0x0C) start)).map (·.uart.a.txEn) = some true := by
  decide

/-- V20, V88: TBI for port B; a recompute drops a cause a program set. -/
theorem test_uart_command_write_b :
    (goes (exec (.uartWrCrb .w8 0x04) (uartIs fun u => { u with a := { u.a with txEn := true } }))).map (·.uart.istat) = some 0x11 ∧
    (goes (exec (.uartWrCrb .w8 0x00) (csrIs 0x0008))).map (·.csr.bits) = some 0 := by
  decide

/-- V21: MISC 2 after ERX leaves the receiver disabled, and RXR and RAI clear. -/
theorem test_uart_command_misc2 :
    (goes (exec (.uartCmdMisc2 .a false false false false true)
      (uartIs fun u => { u with a := { u.a with status := 0x01, rxbuf := 0x41 }, istat := 0x02 }))).map
      (fun s => (s.uart.a.rxEn, s.uart.a.status, s.uart.a.rxbuf, s.uart.istat, s.uart.a.cmd)) = some (false, 0, 0x41, 0, 0x21) := by
  decide

/-- V22: the transmit update sets TXR again. -/
theorem test_uart_command_misc3 :
    (goes (exec (.uartCmdMisc3 .a false false false false false) (uartIs fun u => { u with a := { u.a with txEn := true, status := 0x0C } }))).map
      (·.uart.a.status) = some 0x0C := by
  decide

/-- V24: the cursor goes back to 0. -/
theorem test_uart_command_misc1 :
    (goes (exec (.uartCmdMisc1 .b false false false false false) (uartIs fun u => { u with b := { u.b with modePtr := 1 } }))).map
      (fun s => (s.uart.b.modePtr, s.uart.b.cmd)) = some (0, 0x10) := by
  decide

/-- R174: status[6:4] cleared, the rest kept. -/
theorem test_uart_command_misc4 :
    (goes (exec (.uartCmdMisc4 .a false false false false false) (uartIs fun u => { u with a := { u.a with status := 0xF3 } }))).map
      (·.uart.a.status) = some 0x83 := by
  decide

/-- R170, R175 to R177: only the enables act; here DTX, DRX and ETX, ERX. -/
theorem test_uart_command_no_effect :
    [Instr.uartCmdMisc0 .a true true false true false, .uartCmdMisc5 .a true true false true false,
      .uartCmdMisc6 .a true true false true false, .uartCmdMisc7 .a true true false true false].all (fun i =>
      (goes (exec i (uartIs fun u => { u with a := { u.a with txEn := true, rxEn := true, modePtr := 1, status := 0x0D }, istat := 0x03 }))).map
        (fun s => (s.uart.a.txEn, s.uart.a.rxEn, s.uart.a.modePtr, s.uart.a.status, s.uart.istat)) ==
        some (false, false, 1, 0x01, 0x02)) = true := by
  decide

/-- V25, V26: the byte is kept; it is emitted where the transmitter is enabled. -/
theorem test_uart_transmit :
    (goes (exec (.uartWrThra .w8 0x41) start)).map (fun s => (s.uart.a.txbuf, s.history)) = some (0x41, []) ∧
    (goes (exec (.uartWrThra .w8 0x41) (uartIs fun u => { u with a := { u.a with txEn := true, status := 0x0C } }))).map
      (fun s => (s.uart.a.status, s.history)) = some (0x0C, [.tx .a 0x41]) := by
  decide

/-- V86: the cause comes back and the events stand in order. -/
theorem test_uart_transmit_b :
    (goes (exec (.uartWrThrb .w8 0x20) (uartIs fun u => { u with b := { u.b with txEn := true }, imask := 0x10 }))).map
      (fun s => (s.csr.bits, s.history)) = some (0x0008, [.tx .b 0x20, irq]) := by
  decide

/-- V34, V87. -/
theorem test_uart_mask_write :
    (goes (exec (.uartWrImr .w8 0x08) (uartIs fun u => { u with istat := 0x08 }))).map (fun s => (s.csr.bits, s.history)) = some (0x0008, [irq]) ∧
    (goes (exec (.uartWrImr .w8 0x00) { uartIs (fun u => { u with istat := 0x08, imask := 0x08 }) with csr := { bits := 8 } })).map
      (fun s => (s.csr.bits, s.history)) = some (0, []) := by
  decide

/-- V44. -/
theorem test_uart_acr_write :
    (goes (exec (.uartWrAcr .w8 0x70) start)).map (·.uart) = some { start.uart with acr := 0x70 } := by
  decide

/-- V35, V36: each half of both fields. -/
theorem test_uart_preset_writes :
    (goes (exec (.uartWrCtur .w8 0x12) (uartIs fun u => { u with counterSet := 3, counterValue := 3 }))).map
      (fun s => (s.uart.counterSet, s.uart.counterValue)) = some (0x1203, 0x1203) ∧
    (goes (exec (.uartWrCtlr .w8 0x34) (uartIs fun u => { u with counterSet := 0x0105, counterValue := 0x0104 }))).map
      (fun s => (s.uart.counterSet, s.uart.counterValue)) = some (0x0134, 0x0134) := by
  decide

/-- V43 (R195, R203, R206 to R209). -/
theorem test_uart_ignored_writes :
    [Instr.uartWrCsra .w8 0xBB, .uartWrCsrb .w8 0xBB, .uartWrRsv12 .w8 1, .uartWrRsv13 .w8 1, .uartWrSopr .w8 0xFF,
      .uartWrRopr .w8 0xFF].all (fun i => goes (exec i start) == some start) = true := by
  decide

/-- V37, V40: 2 drops to 1; 1 expires and reloads 3; a preset of 0 expires at once. -/
theorem test_uart_counter_tick :
    (goes (serviced 3 2)).map (fun s => (s.uart.counterValue, s.uart.counterEnabled)) = some (1, true) ∧
    (goes (serviced 3 1)).map (fun s => (s.uart.counterValue, s.uart.counterEnabled, s.uart.istat, s.csr.bits)) =
      some (3, false, 0x08, 0x0008) ∧
    (goes (serviced 0 0)).map (·.uart.istat) = some 0x08 := by
  decide

/-- E5, V30, V33: taken by both ports; lost where RXR is set or port A's receiver is disabled. -/
theorem test_uart_receive_tick :
    (goes (received 0x31 (fun u => { u with a := { u.a with rxEn := true }, b := { u.b with rxEn := true } }))).map
      (fun s => (s.uart.a.rxbuf, s.uart.b.rxbuf, s.uart.istat, s.inputs.kbd)) = some (0x31, 0x31, 0x22, none) ∧
    (goes (received 0x42 (fun u => { u with a := { u.a with rxEn := true, status := 0x01, rxbuf := 0x41 }, istat := 0x02 }))).map
      (fun s => (s.uart.a.rxbuf, s.uart.a.status)) = some (0x41, 0x01) ∧
    (goes (received 0x55 (fun u => { u with b := { u.b with rxEn := true } }))).map (fun s => (s.uart.b.rxbuf, s.inputs.kbd)) =
      some (0, none) := by
  decide

/-- V47, V46, V52, V65: DRQ in the Type II layout; NRDY; TK_0 in the Type I layout; cause 2 is cleared. -/
theorem test_fdc_status_read :
    got (exec (.fdcRdStatus .w8) (waiting 0x80 id)) = byte 0x03 ∧
    got (exec (.fdcRdStatus .w8) { executing 0x80 (fun d => { d with status := 0 }) with inputs := .initial }) = byte 0x80 ∧
    got (exec (.fdcRdStatus .w8) (fdcIs fun d => { d with cmdType := .typeIV })) = byte 0x04 ∧
    (goes (exec (.fdcRdStatus .w8) (csrIs 0x000F))).map (·.csr.bits) = some 0x000B := by
  decide

/-- R233: INDEX is the draw in the Type I layout, and the draw is used up. -/
theorem test_fdc_status_draw :
    got (exec (.fdcRdStatus .w8) { start with inputs := { start.inputs with draws := [1] } }) = byte 0x06 ∧
    (goes (exec (.fdcRdStatus .w8) start)).map (·.inputs.draws) = some [0] ∧
    (goes (exec (.fdcRdStatus .w8) (waiting 0x80 id))).map (·.inputs.draws) = some [0, 0] := by
  decide

/-- V72. -/
theorem test_fdc_registers :
    got (exec (.fdcRdTrack .w8) (fdcIs fun d => { d with track := 0x2A, sector := 0x07, data := 0xE5 })) = byte 0x2A ∧
    got (exec (.fdcRdSector .w8) (fdcIs fun d => { d with track := 0x2A, sector := 0x07, data := 0xE5 })) = byte 0x07 ∧
    got (exec (.fdcRdData .w8) (fdcIs fun d => { d with track := 0x2A, sector := 0x07, data := 0xE5 })) = byte 0xE5 ∧
    (goes (exec (.fdcWrTrack .w8 0x2A) start)).map (·.fdc) = some { start.fdc with track := 0x2A } ∧
    (goes (exec (.fdcWrSector .w8 0x07) start)).map (·.fdc) = some { start.fdc with sector := 0x07 } ∧
    (goes (exec (.fdcWrData .w8 0xE5) start)).map (·.fdc) = some { start.fdc with data := 0xE5 } := by
  decide

/-- V46, V49, V71, P5.2: BUSY, the class, the side, multi; cause 2 is cleared. -/
theorem test_fdc_accept :
    (goes (exec (.fdcWrCmd .w8 0x82) (csrIs 0x000C))).map
      (fun s => (s.fdc.cmdType, s.fdc.status, s.fdc.side, s.fdc.multi, s.fdc.phase, s.csr.bits)) =
      some (.typeII, 0x01, true, false, .exec 1, 0x0008) ∧
    (goes (exec (.fdcWrCmd .w8 0xB0) start)).map (fun s => (s.fdc.cmd, s.fdc.multi)) = some (0xB0, true) := by
  decide

/-- V64: a Type I byte is ignored while BUSY; V65: FORCE_INTERRUPT is not. -/
theorem test_fdc_busy_ignores :
    goes (exec (.fdcWrCmd .w8 0x00) (waiting 0x80 id)) = some (waiting 0x80 id) ∧
    (goes (exec (.fdcWrCmd .w8 0xD8) (waiting 0x80 id))).map (fun s => (s.fdc.phase, s.fdc.drq, s.fdc.cmdType, s.csr.bits)) =
      some (.idle, false, .typeIV, 0x0004) := by
  decide

/-- V66. -/
theorem test_fdc_force_interrupt :
    (goes (exec (.fdcForceInterrupt 0) (csrIs 0x0004))).map (fun s => (s.csr.bits, s.fdc.cmdType, s.fdc.cmd)) = some (0, .typeIV, 0xD0) := by
  decide

/-- V63. -/
theorem test_fdc_restore :
    (goes (exec (.fdcRestore false false 0) (executing 0x00 fun d => { d with track := 7, physTrack := 7 }))).map
      (fun s => (s.fdc.track, s.fdc.physTrack, s.fdc.stepDir, s.fdc.status, s.csr.bits)) = some (0, 0, .outward, 0x04, 0x0004) := by
  decide

/-- V54, V58. -/
theorem test_fdc_seek :
    (goes (exec (.fdcSeek false true 0) (executing 0x14 fun d => { d with data := 5 }))).map
      (fun s => (s.fdc.track, s.fdc.physTrack, s.fdc.stepDir, s.fdc.status)) = some (5, 5, .inward, 0x20) ∧
    (goes (exec (.fdcSeek false true 0) (executing 0x14 fun d => { d with data := 85 }))).map
      (fun s => (s.fdc.track, s.fdc.physTrack, s.fdc.status)) = some (85, 79, 0x30) := by
  decide

/-- V62: in the direction of the last seek. -/
theorem test_fdc_step :
    (goes (exec (.fdcStep true false false 0) (executing 0x30 fun d => { d with track := 4, physTrack := 4, stepDir := .outward }))).map
      (fun s => (s.fdc.track, s.fdc.physTrack, s.fdc.stepDir)) = some (3, 3, .outward) := by
  decide

/-- V60, V61. -/
theorem test_fdc_step_in :
    (goes (exec (.fdcStepIn false false true 0) (executing 0x44 id))).map
      (fun s => (s.fdc.track, s.fdc.physTrack, s.fdc.status)) = some (0, 1, 0x30) ∧
    (goes (exec (.fdcStepIn true false false 0) (executing 0x50 fun d => { d with track := 79, physTrack := 79 }))).map
      (fun s => (s.fdc.track, s.fdc.physTrack, s.fdc.status)) = some (80, 79, 0) := by
  decide

/-- V59. -/
theorem test_fdc_step_out :
    (goes (exec (.fdcStepOut true false false 0) (executing 0x70 id))).map
      (fun s => (s.fdc.track, s.fdc.physTrack, s.fdc.stepDir, s.fdc.status)) = some (255, 0, .outward, 0x04) := by
  decide

/-- V49, V51. -/
theorem test_fdc_read_sector :
    (goes (exec (.fdcReadSec false false true false) (executing 0x82 fun d => { d with sector := 9 }))).map (fun s => (s.fdc.xfer, s.fdc.drq)) =
      some (some { dir := .toHost, source := .image, offset := 8704, length := 512 }, true) ∧
    (goes (exec (.fdcReadSec false false false false) (executing 0x80 fun d => { d with sector := 10 }))).map
      (fun s => (s.fdc.status, s.csr.bits)) = some (0x10, 0x0004) := by
  decide

/-- V55. -/
theorem test_fdc_read_sector_multi :
    (goes (exec (.fdcReadSecMulti false false false false) (executing 0x90 fun d => { d with track := 5, physTrack := 5, sector := 8 }))).map
      (fun s => (s.fdc.xfer, s.fdc.multi)) = some (some { dir := .toHost, source := .image, offset := 49664, length := 512 }, true) := by
  decide

/-- E6, V53. -/
theorem test_fdc_write_sector :
    (goes (exec (.fdcWriteSec false false false false) (executing 0xA0 fun d => { d with sector := 1 }))).map (·.fdc.xfer) =
      some (some { dir := .toDisk, source := .image, offset := 0, length := 512 }) ∧
    (goes (exec (.fdcWriteSec false false false false)
      { executing 0xA0 (fun d => { d with sector := 1 }) with inputs := { start.inputs with fdcWp := true } })).map
      (fun s => (s.fdc.status, s.fdc.xfer)) = some (0x40, none) := by
  decide

/-- P5.3. -/
theorem test_fdc_write_sector_multi :
    (goes (exec (.fdcWriteSecMulti false false false false) (executing 0xB0 fun d => { d with sector := 1 }))).map
      (fun s => (s.fdc.xfer, s.fdc.multi)) = some (some { dir := .toDisk, source := .image, offset := 0, length := 512 }, true) := by
  decide

/-- V67: the draws 3 and 0xBEEF give sector 4 and that CRC (log 18). -/
theorem test_fdc_read_address :
    (goes (exec (.fdcReadAddress false false true false)
      { executing 0xC2 (fun d => { d with track := 3, physTrack := 3 }) with
        inputs := { start.inputs with draws := [3, 0xBEEF] } })).map (fun s => (s.fdc.idField, s.fdc.sector, s.fdc.xfer)) =
      some ({ track := 3, side := 1, sector := 4, sizeCode := 2, crcHigh := 0xBE, crcLow := 0xEF }, 3,
        some { dir := .toHost, source := .id, offset := 0, length := 6 }) := by
  decide

/-- V68. -/
theorem test_fdc_read_track :
    (goes (exec (.fdcReadTrack false false true false) (executing 0xE2 fun d => { d with track := 3, physTrack := 3 }))).map (·.fdc.xfer) =
      some (some { dir := .toHost, source := .image, offset := 32256, length := 4608 }) := by
  decide

/-- V69. -/
theorem test_fdc_write_track :
    (goes (exec (.fdcWriteTrack false false false false) { executing 0xF0 id with inputs := { start.inputs with fdcWp := true } })).map
      (·.fdc.status) = some 0x40 := by
  decide

/-- V73: with two ticks left one is counted; V54: with one left the command in `cmd` runs. -/
theorem test_fdc_tick :
    (goes (step { executing 0x00 (fun d => { d with phase := .exec 2 }) with pending := [.service .fdc] })).map (·.fdc.phase) = some (.exec 1) ∧
    (goes (step { executing 0x14 (fun d => { d with data := 5 }) with pending := [.service .fdc] })).map (·.fdc.physTrack) = some 5 := by
  decide

/-- V48, V56, V57. -/
theorem test_fdc_ack :
    (goes (step { waiting 0x80 id with pending := [.fdcDrqAck] })).map (fun s => (s.fdc.status, s.fdc.phase, s.csr.bits)) =
      some (0, .idle, 0x0004) ∧
    (goes (step { waiting 0x90 (fun d => { d with track := 5, physTrack := 5, sector := 8 }) with pending := [.fdcDrqAck] })).map
      (fun s => (s.fdc.sector, s.fdc.xfer, s.fdc.status)) =
      some (9, some { dir := .toHost, source := .image, offset := 50176, length := 512 }, 0x01) ∧
    (goes (step { waiting 0x90 (fun d => { d with track := 5, physTrack := 5, sector := 9 }) with pending := [.fdcDrqAck] })).map
      (fun s => (s.fdc.sector, s.fdc.status, s.fdc.phase)) = some (10, 0x10, .idle) := by
  decide

/-- E6, V70. -/
theorem test_fdc_late :
    (goes (step { waiting 0xA0 id with pending := [.fdcDataLate] })).map (fun s => (s.fdc.status, s.csr.bits)) = some (0x04, 0x0004) ∧
    (goes (step (issued [.fdcDataLate]))).map (·.fdc) = some start.fdc := by
  decide

/-- V75, V76, V79: the fill; big-endian; the last whole word. -/
theorem test_nv_read :
    got (exec (.nvRd 0 .w32) start) = word 0x5A5A5A5A ∧
    got (exec (.nvRd 1 .w16) { start with nv := { start.nv with bytes := [(0, 0x12), (1, 0x34), (2, 0x56), (3, 0x78)] } }) = half 0x3456 ∧
    got (exec (.nvRd 2044 .w32) start) = word 0x5A5A5A5A := by
  decide

/-- V74, V78, from power-on and from the start. -/
theorem test_nv_read_faults :
    fails (exec (.nvRd 2046 .w32) start) = some .nvRange ∧
    fails (exec (.nvRd 0 .w8) powered) = some .nvUnallocated := by
  decide

/-- V77, V81; writing the fill takes the byte out of the list (log 12). -/
theorem test_nv_write :
    (goes (exec (.nvWr 4 .w16 0xABCD) start)).map (·.nv.bytes) = some [(4, 0xAB), (5, 0xCD)] ∧
    (goes (exec (.nvWr 0 .w32 0x12345678) start)).map (·.nv.bytes) = some [(0, 0x12), (1, 0x34), (2, 0x56), (3, 0x78)] ∧
    (goes (exec (.nvWr 9 .w8 0x5A) { start with nv := { start.nv with bytes := [(9, 0xFF)] } })).map (·.nv.bytes) = some [] := by
  decide

/-- R292, R293, R311: unallocated is tested first. -/
theorem test_nv_write_faults :
    fails (exec (.nvWr 2047 .w16 0) start) = some .nvRange ∧
    fails (exec (.nvWr 9999 .w8 0) powered) = some .nvUnallocated := by
  decide

/-- V82, V83, on a store of three bytes. -/
theorem test_nv_load_and_save :
    fails (step { issued [.nvLoad [1, 2]] with params := { params with nvramSize := 3 } }) = some .nvImageSize ∧
    (goes (step { issued [.nvLoad [1, 0x5A, 3]] with params := { params with nvramSize := 3 } })).map (·.nv.bytes) = some [(0, 1), (2, 3)] ∧
    got (step { issued [.nvSave] with params := { params with nvramSize := 3 }, nv := { bytes := [(0, 1), (2, 3)], allocated := true } }) =
      some (.image [1, 0x5A, 3]) := by
  decide

/-- V84, V89: a device's reset leaves the CSR alone. -/
theorem test_reset_keeps_the_cause :
    (goes (step { uartIs (fun u => { u with a := { u.a with txEn := true }, imask := 1 }) with csr := { bits := 8 }, pending := [.reset .uart] })).map
      (fun s => (s.uart, s.csr.bits)) = some (.reset, 8) ∧
    (goes (step { csrIs 0x0004 with pending := [.reset .fdc] })).map (·.csr.bits) = some 4 := by
  decide

/-- R70: the UART's command offset at UART_BASE + 2; an address in no window. -/
theorem test_phys_access :
    (goes (step (issued [.phys .write 0x1002 .w8 0x04]))).map (·.uart.a.txEn) = some true ∧
    goes (step (issued [.phys .read 0x7FFF .w8 0])) = some start := by
  decide

/-- P7: at power-on the store is not allocated, and its first reset allocates and fills it, the other devices as they were. -/
theorem test_power_on :
    powered.nv.allocated = false ∧
    (goes (step { powered with pending := [.reset .nv] })).map (fun s => (s.nv, s.csr.bits)) = some (Nv.reset, 0xFFFF) := by
  decide

/-- R40: the state after reset holds the reset values; nothing is pending and no event has been emitted. -/
theorem test_reset_state :
    State.reset.csr.bits = 0 ∧ State.reset.uart = .reset ∧ State.reset.fdc.stepDir = .inward ∧ State.reset.nv.allocated = true ∧
    State.reset.history = [] ∧ State.reset.pending = [] := by
  decide
/-! ## Witnesses: for each statement with hypotheses, a state that meets them -/

/-- The largest values of the three sizes. -/
theorem witness_DecodeOfEncodeIsIdentity :
    (Instr.uartWrMra .w8 0xFF).wellFormed = true ∧
    (Instr.tmrWrC0 .w16 0xFFFF).wellFormed = true ∧
    (Instr.nvWr 0 .w32 0xFFFFFFFF).wellFormed = true :=
  by decide

/-- A value wider than the access decodes, cut. -/
theorem witness_DecodedIsWellFormedAndReencodes :
    decode (.bus .uart 0x82 .w8 0x1FF) = .instr (.uartWrCra .w8 0xFF) :=
  by decide

/-- Offsets 15 and 16 of the UART, 3 and 4 of the timer. -/
theorem witness_OnlyOffsetsOutsideTheWindowAreRejected :
    decode (.bus .uart 0x0F .w8 0) = .instr (.uartRdStop .w8) ∧
    decode (.bus .uart 0x10 .w8 0) = .rejected (.outsideWindow .uart 16) ∧
    decode (.bus .tmr 0x03 .w8 0) = .instr (.tmrRdCtl .w8) ∧
    decode (.bus .tmr 0x04 .w8 0) = .rejected (.outsideWindow .tmr 4) :=
  by decide

/-- An access, a floppy command byte, an empty queue. -/
theorem witness_StepRunsTheDecodedAccess :
    ((issued [.access (.uartCmd .a 0x05)]).pending = [.access (.uartCmd .a 0x05)] ∧
      decode (.uartCmd .a 0x05) = .instr (.uartCmdMisc0 .a false false true false true)) ∧
    (issued [.access (.fdcCmd 0x80)]).pending = [.access (.fdcCmd 0x80)] ∧
    start.pending = [] :=
  by decide

/-- That access is no floppy command byte. -/
theorem witness_StepRunsTheDecodedAccess_format :
    ∀ b, Access.uartCmd .a 0x05 ≠ .fdcCmd b :=
  nofun

/-- One tick to go with a command in `cmd`; two ticks to go; IDLE; WAIT_DRQ. -/
theorem witness_FdcTickRunsTheCommandInCmd :
    ({ executing 0x14 id with pending := [.service .fdc] } : State).pending = .service .fdc :: [] ∧
    (1 ≤ 1 ∧ (executing 0x14 id).fdc.phase = .exec 1 ∧ decode (.fdcCmd (executing 0x14 id).fdc.cmd) = .instr (.fdcSeek false true 0)) ∧
    (executing 0x14 fun d => { d with phase := .exec 2 }).fdc.phase = .exec 2 ∧
    (start.fdc.phase = .idle ∧ (waiting 0x80 id).fdc.phase = .waitDrq) :=
  by decide

/-- A read and a write at the first offset outside. -/
theorem witness_AccessOutsideTheWindowDoesNothing :
    decode (.bus .fdc 0x04 .w8 0) = .rejected (.outsideWindow .fdc 4) ∧
    decode (.bus .uart 0x90 .w8 7) = .rejected (.outsideWindow .uart 16) ∧
    (issued [.access (.bus .fdc 0x04 .w8 0)]).pending = [.access (.bus .fdc 0x04 .w8 0)] :=
  by decide

/-- The first and last byte of windows, and an address in none. -/
theorem witness_PhysicalAccessIsRouted :
    (∀ d, inWindow params d 0x1000 = true ↔ d = .uart) ∧
    (∀ d, inWindow params d 0x100F = true ↔ d = .uart) ∧
    (∀ d, inWindow params d 0x307F = true ↔ d = .csr) ∧
    (∀ d, inWindow params d 0x2003 = true ↔ d = .tmr) ∧
    (∀ d, inWindow params d 0x4000 = true ↔ d = .fdc) ∧
    (∀ d, inWindow params d 0x87FF = true ↔ d = .nv) ∧
    (∀ d, inWindow params d 0x8800 = false) :=
  by
  refine ⟨?_, ?_, ?_, ?_, ?_, ?_, ?_⟩ <;> intro d <;> cases d <;> decide

/-- Steps that fault: one a host goes on after, and the fatal one. -/
theorem witness_OnlyTheStoreFaults :
    fails (step (issued [.access (.nv 0x00 2048 .w8 0)])) = some .nvRange ∧
    fails (step { powered with pending := [.reset .nv], inputs := { Inputs.initial with storeAvailable := false } }) = some .nvAlloc :=
  by decide

/-- Cause 15, read in the set window: 0xFF then 0x7F; cause 0 cleared and read in the clear window: 0x83 then 0x03. -/
theorem witness_CsrSetOrClearThenReadBack :
    ((BitVec.ofNat 8 (0xC0 + 4 * 15 + 3) : Byte) = 0xFF ∧ (BitVec.ofNat 8 (64 * true.toNat + 4 * 15 + 3) : Byte) = 0x7F) ∧
    ((BitVec.ofNat 8 (0x80 + 4 * 0 + 3) : Byte) = 0x83 ∧ (BitVec.ofNat 8 (64 * false.toNat + 4 * 0 + 3) : Byte) = 0x03) ∧
    (issued [.access (.bus .csr 0xFF .w8 0), .access (.bus .csr 0x7F .w8 0)]).pending =
      [.access (.bus .csr 0xFF .w8 0), .access (.bus .csr 0x7F .w8 0)] :=
  by decide

/-- The first and the last of the rows. -/
theorem witness_ReservedReadsReturnZero :
    (RegDevice.csr, 124, Instr.csrRdNop0 31 .w8) ∈ reservedReads 31 .w8 ∧
    (RegDevice.uart, 13, Instr.uartRdRsv13 .w8) ∈ reservedReads 0 .w8 :=
  ⟨by simp [reservedReads], by simp [reservedReads]⟩

/-- The first and the last of the rows. -/
theorem witness_UnimplementedWritesChangeNothing :
    (RegDevice.csr, 0x80 + 124, Instr.csrWrNop0 31 .w8) ∈ unimplementedWrites 31 .w8 ∧
    (RegDevice.uart, 0x8F, Instr.uartWrRopr .w8) ∈ unimplementedWrites 0 .w8 :=
  ⟨by simp [unimplementedWrites], by simp [unimplementedWrites]⟩

/-- A UART access that goes on, and is none of the three kinds shut out. -/
theorem witness_StepOnlyAddsHistoryAndDrivesTwoCauses :
    (∃ t, step (issued [.access (.bus .uart 0x82 .w8 5)]) = .next t) ∧
    (∀ op, (issued [.access (.bus .uart 0x82 .w8 5)]).pending.head? = some op →
      (∀ sel sz v, op ≠ .access (.bus .csr sel sz v)) ∧ (∀ dir pa sz v, op ≠ .phys dir pa sz v) ∧ op ≠ .reset .csr) :=
  by
  refine ⟨⟨_, rfl⟩, fun op h => ?_⟩
  cases h
  exact ⟨nofun, nofun, nofun⟩

/-- A timer tick is issued. -/
theorem witness_TimerTickRule :
    (issued [.service .tmr]).pending = .service .tmr :: [] :=
  by decide

/-- A load of channel 2 and three ticks. -/
theorem witness_TimerPeriodLaw :
    (issued [.access (.bus .tmr 0x82 .w8 3), .service .tmr, .service .tmr, .service .tmr]).pending =
      .access (.bus .tmr (BitVec.ofNat 8 (0x80 + (2 : Fin 3))) .w8 3) :: (List.replicate 3 (.service .tmr) ++ []) :=
  by decide

/-- The greatest value of 8 and of 32 bits. -/
theorem witness_TimerLoadSetsDividerAndCounter :
    (0xFF : Word).toNat < 2 ^ AccSize.w8.bits ∧ (0xFFFFFFFF : Word).toNat < 2 ^ AccSize.w32.bits :=
  by decide

/-- Counts of 2 of 3, 1 of 1 and 0 of 0, and a step that goes on. -/
theorem witness_StepKeepsTimerCountsBounded :
    (∀ c, (chan ({ c0 := { divider := 3, counter := 2 }, c1 := .load 1, c2 := .load 0 } : Tmr) c).inv) ∧
    ∃ t, step { issued [.service .tmr] with
      tmr := { c0 := { divider := 3, counter := 2 }, c1 := .load 1, c2 := .load 0 } } = .next t :=
  by
  refine ⟨fun c => ?_, ⟨_, rfl⟩⟩
  match c with
  | 0 => exact ⟨by decide, by decide⟩
  | 1 => exact ⟨by decide, by decide⟩
  | 2 => exact ⟨by decide, by decide⟩

/-- Two writes and three reads from the reset state. -/
theorem witness_ModeWritesReadBackInTurn :
    (start.uart.port .b).modePtr = 0 ∧ ∃ t1 t2 t3 t4 t5 : State,
    exec (modeWriteOp .b .w8 0x13) start = .next t1 ∧ exec (modeWriteOp .b .w8 0x07) t1 = .next t2 ∧
    exec (modeReadOp .b .w8) t2 = .next t3 ∧ exec (modeReadOp .b .w8) t3 = .next t4 ∧
    exec (modeReadOp .b .w8) t4 = .next t5 :=
  ⟨by decide, _, _, _, _, _, rfl, rfl, rfl, rfl, rfl⟩

/-- The last misc command. -/
theorem witness_CommandRowsRule :
    7 < 8 :=
  by decide

/-- No character; disabled; enabled above the step; enabled at the step. -/
theorem witness_CounterTickRule :
    ((issued [.service .uart]).pending = .service .uart :: [] ∧ start.inputs.kbd = none) ∧
    start.uart.counterEnabled = false ∧
    ((uartIs fun u => { u with counterEnabled := true, counterValue := 2 }).uart.counterEnabled = true ∧
      params.uartCtrStep < (uartIs fun u => { u with counterEnabled := true, counterValue := 2 }).uart.counterValue.toNat) ∧
    ((uartIs fun u => { u with counterEnabled := true, counterValue := 1 }).uart.counterEnabled = true ∧
      (uartIs fun u => { u with counterEnabled := true, counterValue := 1 }).uart.counterValue.toNat ≤ params.uartCtrStep) :=
  by decide

/-- V39: step 2 and value 5: two ticks do not reach it, the third does. -/
theorem witness_CounterExpiresOnItsTick :
    ((uartIs fun u => { u with counterEnabled := true, counterValue := 5 }).uart.counterEnabled = true ∧ start.inputs.kbd = none ∧
      1 ≤ (5 : Half).toNat) ∧
    2 * ({ params with uartCtrStepPred := 1 } : Config.Params).uartCtrStep < (5 : Half).toNat ∧
    3 = ((5 : Half).toNat + ({ params with uartCtrStepPred := 1 } : Config.Params).uartCtrStep - 1) /
      ({ params with uartCtrStepPred := 1 } : Config.Params).uartCtrStep ∧
    (issued [.service .uart, .service .uart, .service .uart]).pending = List.replicate 3 (.service .uart) ++ [] :=
  by decide

/-- A character offered with port A's receiver disabled and enabled, the counter expiring on the same tick. -/
theorem witness_ReceivePathRule :
    ({ issued [.service .uart] with inputs := { start.inputs with kbd := some 0x41 } } : State).inputs.kbd = some 0x41 ∧
    (issued [.service .uart]).pending = .service .uart :: [] ∧
    start.uart.a.rxEn = false ∧
    (uartIs fun u => { u with a := { u.a with rxEn := true }, counterEnabled := true }).uart.a.rxEn = true ∧
    (goes (step { uartIs fun u => { u with a := { u.a with rxEn := true }, counterEnabled := true } with
      pending := [.service .uart], inputs := { start.inputs with kbd := none } })).isSome :=
  by decide

/-- The reset UART meets the three, and a step goes on. -/
theorem witness_StepKeepsUartInvariants :
    start.uart.txInv ∧ start.uart.rxInv ∧ start.uart.unsetInv ∧ ∃ t, step (issued [.access (.uartCmd .a 0x05)]) = .next t :=
  by
  refine ⟨⟨fun p => by cases p <;> decide, by decide, by decide⟩, fun p => by cases p <;> decide,
    ⟨fun p => by cases p <;> decide, by decide⟩, ⟨_, rfl⟩⟩

/-- Bytes 0xC2 and 0xE0 on both sides of 0xD0; BUSY clear and set. -/
theorem witness_FdcCommandAcceptedOrIgnored :
    ((0xD8 : Word).toNat / 16 % 16 = 0xD ∧ (0xC2 : Word).toNat / 16 % 16 ≠ 0xD ∧ (0xE0 : Word).toNat / 16 % 16 ≠ 0xD) ∧
    start.fdc.status.getLsbD 0 = false ∧
    (executing 0x80 id).fdc.status.getLsbD 0 = true :=
  by decide

/-- On track 79, sectors 1 and 9. -/
theorem witness_SectorCommandsRule :
    (fdcIs fun d => { d with physTrack := 79, sector := 1 }).fdc.physTrack < 80 ∧
    1 ≤ (fdcIs fun d => { d with physTrack := 79, sector := 1 }).fdc.sector.toNat ∧
    (fdcIs fun d => { d with physTrack := 79, sector := 9 }).fdc.sector.toNat ≤ 9 :=
  by decide

/-- Not ready; ready. -/
theorem witness_ReadAddressRule :
    ({ start with inputs := .initial } : State).inputs.fdcReady = false ∧ start.inputs.fdcReady = true :=
  by decide

/-- An acknowledgment in IDLE, in WAIT_DRQ of a multi-sector command, in WAIT_DRQ of another. -/
theorem witness_DrqAckRule :
    (issued [.fdcDrqAck]).pending = .fdcDrqAck :: [] ∧
    start.fdc.phase ≠ .waitDrq ∧
    ((waiting 0x90 id).fdc.phase = .waitDrq ∧ (waiting 0x90 id).fdc.cmdType = .typeII ∧ (waiting 0x90 id).fdc.multi = true) ∧
    ((waiting 0x80 id).fdc.phase = .waitDrq ∧ (waiting 0x80 id).fdc.multi = false) :=
  by decide

/-- A data-late event in IDLE, and in WAIT_DRQ of a controller that meets the invariants. -/
theorem witness_DataLateRule :
    (issued [.fdcDataLate]).pending = .fdcDataLate :: [] ∧
    start.fdc.phase ≠ .waitDrq ∧
    (waiting 0x80 id).fdc.phase = .waitDrq ∧ (waiting 0x80 id).fdc.inv params.fdcLatency := by
  refine ⟨by decide, by decide, by decide, by decide, by decide, by decide, ?_, by decide, by decide, by decide, by decide⟩
  intro n h
  have e : Phase.waitDrq = Phase.exec n := h
  cases e

/-- SEEK with verify and one FDC tick. -/
theorem witness_FdcCommandRunsAfterItsLatency :
    start.fdc.status.getLsbD 0 = false ∧
    (0x14 : Byte).toNat / 16 ≠ 0xD ∧
    decode (.fdcCmd 0x14) = .instr (.fdcSeek false true 0) ∧
    (issued [.access (.bus .fdc 0x80 .w8 0x14), .service .fdc]).pending =
      .access (.bus .fdc 0x80 .w8 ((0x14 : Byte).setWidth 32)) :: (List.replicate params.fdcLatency (.service .fdc) ++ []) ∧
    (goes (exec (.fdcWrCmd .w8 ((0x14 : Byte).setWidth 32)) (issued [.access (.bus .fdc 0x80 .w8 0x14), .service .fdc]))).isSome :=
  by decide

/-- A controller waiting for DRQ meets the invariant, and its acknowledgment goes on. -/
theorem witness_StepKeepsFdcInvariants :
    (waiting 0x80 id).fdc.inv params.fdcLatency ∧ ∃ t, step { waiting 0x80 id with pending := [.fdcDrqAck] } = .next t :=
  by
  refine ⟨⟨by decide, by decide, by decide, ?_, by decide, by decide, by decide, by decide⟩, ⟨_, rfl⟩⟩
  intro n h
  have e : Phase.waitDrq = Phase.exec n := h
  cases e

/-- The last whole word, and the last byte. -/
theorem witness_NvReadReturnsBigEndian :
    start.nv.allocated = true ∧ 2044 + bytesOf .w32 ≤ start.params.nvramSize ∧ 2047 + bytesOf .w8 ≤ start.params.nvramSize :=
  by decide

/-- The same bounds, on a canonical store. -/
theorem witness_NvWriteStoresBigEndian :
    start.nv.bytes.wf ∧ start.nv.allocated = true ∧ 2046 + bytesOf .w16 ≤ start.params.nvramSize :=
  ⟨Memory.wf_nil, by decide, by decide⟩

/-- Before allocation, with a save and a load issued, and one byte past the end. -/
theorem witness_NvAccessFaults :
    (issued [.nvSave]).pending = .nvSave :: [] ∧ (issued [.nvLoad [1]]).pending = .nvLoad [1] :: [] ∧
    ({ start with nv := { bytes := [], allocated := false } } : State).nv.allocated = false ∧
    (start.nv.allocated = true ∧ start.params.nvramSize < 2045 + bytesOf .w32) :=
  by decide

/-- A write and a read that go on. -/
theorem witness_NvWriteThenReadReturnsTheValue :
    start.nv.bytes.wf ∧ ∃ t u : State, exec (.nvWr 0 .w32 0x12345678) start = .next t ∧ exec (.nvRd 0 .w32) t = .next u :=
  ⟨Memory.wf_nil, _, _, rfl, rfl⟩

/-- An image of the store's length, and one of another length. -/
theorem witness_LoadThenSaveReturnsTheImage :
    ({ issued [.nvLoad [1, 2, 3], .nvSave] with params := { params with nvramSize := 3 } } : State).pending =
      .nvLoad [1, 2, 3] :: .nvSave :: [] ∧
    start.nv.allocated = true ∧
    (([1, 2, 3] : List Byte).length = ({ params with nvramSize := 3 } : Config.Params).nvramSize ∧
      ([1, 2] : List Byte).length ≠ ({ params with nvramSize := 3 } : Config.Params).nvramSize) :=
  by decide

/-- An allocated store holding its last byte, and a write that goes on. -/
theorem witness_StepKeepsMemoryCanonical :
    ({ start with nv := { bytes := [(2047, 1)], allocated := true } } : State).memInv ∧
    ∃ t, step { issued [.access (.nv 0x80 2047 .w8 0x5A)] with nv := { bytes := [(2047, 1)], allocated := true } } = .next t :=
  by
  refine ⟨⟨Memory.wf_cons Memory.wf_nil (by decide) (by intro c h; cases h), ?_⟩, ⟨_, rfl⟩⟩
  intro c h
  cases h with
  | head => decide
  | tail _ h => cases h

/-- Each host input issued. -/
theorem witness_HostInputsChangeOnlyInputs :
    (issued [.input true false]).pending = .input true false :: [] ∧ (issued [.kbd (some 0x41)]).pending = .kbd (some 0x41) :: [] :=
  by decide

/-- A reset of each kind: the store already there, the store to allocate, no store to be had. -/
theorem witness_ResetWritesOwnDevice :
    ((issued [.reset .nv]).pending = .reset .nv :: [] ∧ start.nv.allocated = true) ∧
    (powered.nv.allocated = false ∧ powered.inputs.storeAvailable = true) ∧
    (let s : State := { powered with pending := [.reset .nv], inputs := { Inputs.initial with storeAvailable := false } }
     s.pending = .reset .nv :: [] ∧ s.nv.allocated = false ∧ s.inputs.storeAvailable = false) :=
  by decide

/-- A tick of the CSR and one of the NVRAM. -/
theorem witness_TickOrderDoesNotMatter :
    (issued [.service .csr]).pending = .service .csr :: [] ∧ (issued [.service .nv]).pending = .service .nv :: [] :=
  by decide

/-- Two resets of the FDC that go on. -/
theorem witness_ResetIsIdempotent :
    ∃ t u : State, step (issued [.reset .fdc, .reset .fdc]) = .next t ∧ step t = .next u :=
  ⟨_, _, rfl, rfl⟩

/-- The five resets, with the store allocated though no other could be had, and not allocated. -/
theorem witness_SystemResetGivesResetState :
    (issued systemReset).pending = systemReset ++ [] ∧
    (let s : State := { issued systemReset with inputs := { start.inputs with storeAvailable := false } }
     s.pending = systemReset ++ [] ∧ s.nv.allocated = true ∧ s.inputs.storeAvailable = false) ∧
    (powered.nv.allocated = false ∧ powered.inputs.storeAvailable = true) :=
  by decide

end Sys2Proof.Tests
end

section
/-! PROOFS. The CSR (R120 to R126), and the accesses of every device that only return 0 or do nothing. First what a
round trip says of a selector, what a read's answer is, and what `setBit` is in the words of the statements. -/

namespace Sys2Proof.Proofs

open Sys2Proof.Machine Sys2Proof.Claims Sys2Proof.Laws

/-! ## From an operation's encoding to its selector -/

/-- An operation encoded as a read is what its selector decodes to: a read's value says nothing (R90). -/
theorem readDecodes_of_roundTrip {dev : RegDevice} {off : BitVec 7} {sel : Nat} {sz : AccSize} {i : Instr}
    (roundTrip : RoundTrip.Statement i) (wf : i.wellFormed = true) (enc : encode i = busRead dev off sz)
    (hsel : (0#1 ++ off : Byte) = BitVec.ofNat 8 sel) : readDecodes dev sel sz i := by
  intro v
  have hread : (BitVec.ofNat 8 sel).getLsbD 7 = false := by
    rw [← hsel, BitVec.getLsbD_append]; rfl
  have hdec : decode (.bus dev (BitVec.ofNat 8 sel) sz 0) = .instr i := by
    rw [← hsel, ← roundTrip wf, enc, busRead]
  simpa only [decode, hread, Bool.false_eq_true, if_false] using hdec

/-- An operation encoded as a write is what its selector decodes to, for every value of the size (R90, R74). -/
theorem writeDecodes_of_roundTrip {dev : RegDevice} {off : BitVec 7} {sel : Nat} {sz : AccSize} {v : Word}
    {op : Word → Instr} (roundTrip : RoundTrip.Statement (op v)) (wf : (op v).wellFormed = valueFits sz v)
    (enc : encode (op v) = busWrite dev off sz v) (hsel : (1#1 ++ off : Byte) = BitVec.ofNat 8 sel) :
    writeDecodes dev sel sz v op := by
  intro hv
  have hwf : (op v).wellFormed = true := by rw [wf]; exact decide_eq_true hv
  rw [← hsel, ← roundTrip hwf, enc, busWrite]

/-- The selector of a CSR read that names cause k in window w: `0wkkkk11` (R93). -/
theorem csrCause_readSelector (w : Bool) (k : BitVec 4) :
    (0#1 ++ csrCauseOffset w k : Byte) = BitVec.ofNat 8 (64 * w.toNat + 4 * k.toNat + 3) := by
  revert w k; decide

/-- The selector of a CSR write that names cause k in the clear or the set window: `1wkkkk11` (R93). -/
theorem csrCause_writeSelector (w : Bool) (k : BitVec 4) :
    (1#1 ++ csrCauseOffset w k : Byte) = BitVec.ofNat 8 (0x80 + 64 * w.toNat + 4 * k.toNat + 3) := by
  revert w k; decide

/-- The selector of a CSR read by its low two bits (R93). -/
theorem csrOffset_readSelector (x : BitVec 5) (low : BitVec 2) :
    (0#1 ++ csrOffset x low : Byte) = BitVec.ofNat 8 (4 * x.toNat + low.toNat) := by
  revert x low; decide

/-- The selector of a CSR write by its low two bits (R93). -/
theorem csrOffset_writeSelector (x : BitVec 5) (low : BitVec 2) :
    (1#1 ++ csrOffset x low : Byte) = BitVec.ofNat 8 (0x80 + 4 * x.toNat + low.toNat) := by
  revert x low; decide

/-! ## Answers and single bits -/

/-- A value of at most 8 bits is returned whole at every size (R9). -/
theorem answers_answerRead {n : Nat} (s : State) (sz : AccSize) (v : BitVec n) (hn : n ≤ 8) :
    answers (s.answerRead sz v) sz v.toNat := by
  have hv : v.toNat < 2 ^ 8 := Nat.lt_of_lt_of_le v.isLt (Nat.pow_le_pow_right (by decide) hn)
  refine ⟨readData sz v, State.answerRead_returned s sz v, ?_, ?_⟩
  · cases sz <;> rfl
  · cases sz <;> simp only [readData, dataNat, BitVec.toNat_setWidth] <;> omega

/-- An operation that only answers leaves every other field, and its answer is the number of the value. -/
theorem read_of_exec {n m : Nat} {i : Instr} {s : State} {sz : AccSize} {v : BitVec n}
    (hexec : exec i s = .next (s.answerRead sz v)) (hn : n ≤ 8) (hm : v.toNat = m) :
    ∃ t, exec i s = .next t ∧ t = { s with returned := t.returned } ∧ answers t sz m :=
  ⟨_, hexec, rfl, hm ▸ answers_answerRead s sz v hn⟩

/-- `setBit` in the words of the statements. -/
theorem isWithBit_setBit {n : Nat} (v : BitVec n) (k : Nat) (b : Bool) : isWithBit v (setBit v k b) k b := by
  intro j hj
  by_cases h : j = k
  · rw [if_pos h, setBit_getLsbD, if_pos ⟨hj, h.symm⟩]
  · rw [if_neg h, setBit_other v k j b (Ne.symm h)]

/-! ## CSR -/

theorem exec_csrRd (s : State) (w : Bool) (k : BitVec 4) (sz : AccSize) :
    exec (.csrRd w k sz) s = .next (s.answerRead sz (BitVec.ofBool (s.csr.bits.getLsbD k.toNat))) := rfl

theorem exec_csrClr (s : State) (k : BitVec 4) (sz : AccSize) (v : Word) :
    exec (.csrClr k sz v) s = .next (s.csrClear k.toNat) := rfl

theorem exec_csrSet (s : State) (k : BitVec 4) (sz : AccSize) (v : Word) :
    exec (.csrSet k sz v) s = .next (s.csrSet k.toNat) := rfl

theorem csrRd_readDecodes (w : Bool) (k : BitVec 4) (sz : AccSize) :
    readDecodes .csr (64 * w.toNat + 4 * k.toNat + 3) sz (.csrRd w k sz) :=
  readDecodes_of_roundTrip (RoundTrip.csrRd w k sz) rfl rfl (csrCause_readSelector w k)

theorem csrClr_writeDecodes (k : BitVec 4) (sz : AccSize) (v : Word) :
    writeDecodes .csr (0x80 + 4 * k.toNat + 3) sz v (.csrClr k sz) :=
  writeDecodes_of_roundTrip (RoundTrip.csrClr k sz v) rfl rfl (csrCause_writeSelector false k)

theorem csrSet_writeDecodes (k : BitVec 4) (sz : AccSize) (v : Word) :
    writeDecodes .csr (0xC0 + 4 * k.toNat + 3) sz v (.csrSet k sz) :=
  writeDecodes_of_roundTrip (RoundTrip.csrSet k sz v) rfl rfl (csrCause_writeSelector true k)

/-- Settles O10: the answer is one bit wide, so no size cuts it. -/
theorem csrReadReturnsTheCause : Obligations.CsrReadReturnsTheCause := by
  intro s w k sz
  have hbit : ∀ b : Bool, (BitVec.ofBool b).toNat = if b then 1 else 0 := by decide
  exact ⟨csrRd_readDecodes w k sz, read_of_exec (exec_csrRd s w k sz) (by decide) (hbit _)⟩

/-- Settles O11: either write is a `setBit` of the cause register alone. -/
theorem csrWritesChangeOneCause : Obligations.CsrWritesChangeOneCause := by
  intro s k sz v
  refine ⟨csrClr_writeDecodes k sz v, csrSet_writeDecodes k sz v, ?clear, ?set⟩
  case clear => exact ⟨_, exec_csrClr s k sz v, rfl, isWithBit_setBit s.csr.bits k.toNat false⟩
  case set => exact ⟨_, exec_csrSet s k sz v, rfl, isWithBit_setBit s.csr.bits k.toNat true⟩

/-! ## Reads that return 0 and writes without effect -/

theorem reservedReads_decode (x : BitVec 5) (sz : AccSize) :
    ∀ row ∈ reservedReads x sz, readDecodes row.1 row.2.1 sz row.2.2 := by
  simp only [reservedReads, List.forall_mem_cons]
  exact ⟨readDecodes_of_roundTrip (RoundTrip.csrRdNop0 x sz) rfl rfl (csrOffset_readSelector x 0),
    readDecodes_of_roundTrip (RoundTrip.csrRdNop1 x sz) rfl rfl (csrOffset_readSelector x 1),
    readDecodes_of_roundTrip (RoundTrip.csrRdNop2 x sz) rfl rfl (csrOffset_readSelector x 2),
    readDecodes_of_roundTrip (RoundTrip.tmrRdCtl sz) rfl rfl rfl,
    readDecodes_of_roundTrip (RoundTrip.uartRdRsv2 sz) rfl rfl rfl,
    readDecodes_of_roundTrip (RoundTrip.uartRdIpcr sz) rfl rfl rfl,
    readDecodes_of_roundTrip (RoundTrip.uartRdCtu sz) rfl rfl rfl,
    readDecodes_of_roundTrip (RoundTrip.uartRdCtl sz) rfl rfl rfl,
    readDecodes_of_roundTrip (RoundTrip.uartRdRsv10 sz) rfl rfl rfl,
    readDecodes_of_roundTrip (RoundTrip.uartRdRsv12 sz) rfl rfl rfl,
    readDecodes_of_roundTrip (RoundTrip.uartRdRsv13 sz) rfl rfl rfl, List.forall_mem_nil _⟩

/-- Each reserved read answers the byte 0 and does nothing else. -/
theorem exec_reservedReads (s : State) (x : BitVec 5) (sz : AccSize) :
    ∀ row ∈ reservedReads x sz, exec row.2.2 s = .next (s.answerRead sz (0 : Byte)) := by
  simp only [reservedReads, List.forall_mem_cons]
  exact ⟨rfl, rfl, rfl, rfl, rfl, rfl, rfl, rfl, rfl, rfl, rfl, List.forall_mem_nil _⟩

theorem unimplementedWrites_decode (x : BitVec 5) (sz : AccSize) (v : Word) :
    ∀ row ∈ unimplementedWrites x sz, writeDecodes row.1 row.2.1 sz v row.2.2 := by
  simp only [unimplementedWrites, List.forall_mem_cons]
  exact ⟨writeDecodes_of_roundTrip (RoundTrip.csrWrNop0 x sz v) rfl rfl (csrOffset_writeSelector x 0),
    writeDecodes_of_roundTrip (RoundTrip.csrWrNop1 x sz v) rfl rfl (csrOffset_writeSelector x 1),
    writeDecodes_of_roundTrip (RoundTrip.csrWrNop2 x sz v) rfl rfl (csrOffset_writeSelector x 2),
    writeDecodes_of_roundTrip (RoundTrip.tmrWrCtl sz v) rfl rfl rfl,
    writeDecodes_of_roundTrip (RoundTrip.uartWrCsra sz v) rfl rfl rfl,
    writeDecodes_of_roundTrip (RoundTrip.uartWrCsrb sz v) rfl rfl rfl,
    writeDecodes_of_roundTrip (RoundTrip.uartWrRsv12 sz v) rfl rfl rfl,
    writeDecodes_of_roundTrip (RoundTrip.uartWrRsv13 sz v) rfl rfl rfl,
    writeDecodes_of_roundTrip (RoundTrip.uartWrSopr sz v) rfl rfl rfl,
    writeDecodes_of_roundTrip (RoundTrip.uartWrRopr sz v) rfl rfl rfl, List.forall_mem_nil _⟩

theorem exec_unimplementedWrites (s : State) (x : BitVec 5) (sz : AccSize) (v : Word) :
    ∀ row ∈ unimplementedWrites x sz, exec (row.2.2 v) s = .next s := by
  simp only [unimplementedWrites, List.forall_mem_cons]
  exact ⟨rfl, rfl, rfl, rfl, rfl, rfl, rfl, rfl, rfl, rfl, List.forall_mem_nil _⟩

/-- Settles O13, row by row: each decodes by its round trip and answers the byte 0. -/
theorem reservedReadsReturnZero : Obligations.ReservedReadsReturnZero := by
  intro s sz x dev sel i h
  exact ⟨reservedReads_decode x sz (dev, sel, i) h, read_of_exec (exec_reservedReads s x sz (dev, sel, i) h) (by decide) rfl⟩

/-- Settles O14, row by row: each decodes by its round trip and leaves the state as it was. -/
theorem unimplementedWritesChangeNothing : Obligations.UnimplementedWritesChangeNothing := by
  intro s sz v x dev sel op h
  exact ⟨unimplementedWrites_decode x sz v (dev, sel, op) h, exec_unimplementedWrites s x sz v (dev, sel, op) h⟩

end Sys2Proof.Proofs
end

section
/-! PROOFS. The timer (R140 to R146), each statement once for the three channels: the channel an operation names, what
it reads or loads there, and the tick channel by channel. -/

namespace Sys2Proof.Proofs

open Sys2Proof.Machine Sys2Proof.Claims Sys2Proof.Laws

/-! ## Channels -/

/-- The timer with channel i replaced. -/
def withChan (t : Tmr) (i : Fin 3) (c : TmrChannel) : Tmr :=
  match i with
  | 0 => { t with c0 := c }
  | 1 => { t with c1 := c }
  | 2 => { t with c2 := c }

@[simp] theorem chan_withChan_same (t : Tmr) (i : Fin 3) (c : TmrChannel) : chan (withChan t i c) i = c := by
  match i with
  | 0 => rfl
  | 1 => rfl
  | 2 => rfl

theorem chan_withChan_other (t : Tmr) {i j : Fin 3} (c : TmrChannel) (h : j ≠ i) :
    chan (withChan t i c) j = chan t j := by
  match i, j with
  | 0, 0 | 1, 1 | 2, 2 => exact absurd rfl h
  | 0, 1 | 0, 2 | 1, 0 | 1, 2 | 2, 0 | 2, 1 => rfl

@[simp] theorem chan_tick (t : Tmr) (i : Fin 3) : chan t.tick i = (chan t i).tick := by
  match i with
  | 0 => rfl
  | 1 => rfl
  | 2 => rfl

/-! ## Channel reads and loads -/

theorem tmrReadOp_readDecodes (i : Fin 3) (sz : AccSize) : readDecodes .tmr i sz (tmrReadOp i sz) := by
  match i with
  | 0 => exact readDecodes_of_roundTrip (RoundTrip.tmrRdC0 sz) rfl rfl rfl
  | 1 => exact readDecodes_of_roundTrip (RoundTrip.tmrRdC1 sz) rfl rfl rfl
  | 2 => exact readDecodes_of_roundTrip (RoundTrip.tmrRdC2 sz) rfl rfl rfl

theorem tmrLoadOp_writeDecodes (i : Fin 3) (sz : AccSize) (v : Word) :
    writeDecodes .tmr (0x80 + i) sz v (tmrLoadOp i sz) := by
  match i with
  | 0 => exact writeDecodes_of_roundTrip (RoundTrip.tmrWrC0 sz v) rfl rfl rfl
  | 1 => exact writeDecodes_of_roundTrip (RoundTrip.tmrWrC1 sz v) rfl rfl rfl
  | 2 => exact writeDecodes_of_roundTrip (RoundTrip.tmrWrC2 sz v) rfl rfl rfl

theorem exec_tmrReadOp (s : State) (i : Fin 3) (sz : AccSize) :
    exec (tmrReadOp i sz) s = .next (s.answerRead sz (chan s.tmr i).lowByte) := by
  match i with
  | 0 => rfl
  | 1 => rfl
  | 2 => rfl

theorem exec_tmrLoadOp (s : State) (i : Fin 3) (sz : AccSize) (v : Word) :
    exec (tmrLoadOp i sz v) s = .next (s.withTmr (withChan s.tmr i (.load (writtenHalf sz v)))) := by
  match i with
  | 0 => rfl
  | 1 => rfl
  | 2 => rfl

theorem lowByte_toNat (c : TmrChannel) : c.lowByte.toNat = c.counter.toNat % 256 :=
  BitVec.toNat_setWidth 8 c.counter

/-- A value of the access's size is stored mod 2^16 (R143, R9). -/
theorem writtenHalf_toNat_of_fits {sz : AccSize} {v : Word} (h : v.toNat < 2 ^ sz.bits) :
    (writtenHalf sz v).toNat = v.toNat % 65536 := by
  rw [writtenHalf_toNat, Nat.mod_eq_of_lt h]

/-- Settles O16: the byte read is 8 bits wide, so no size cuts it. -/
theorem timerReadReturnsLowByte : Obligations.TimerReadReturnsLowByte := by
  intro s c sz
  exact ⟨tmrReadOp_readDecodes c sz, read_of_exec (exec_tmrReadOp s c sz) (by decide) (lowByte_toNat _)⟩

/-- Settles O17: a load replaces one channel by one whose divider and counter are the 16 bits stored. -/
theorem timerLoadSetsDividerAndCounter : Obligations.TimerLoadSetsDividerAndCounter := by
  intro s c sz v hv
  refine ⟨tmrLoadOp_writeDecodes c sz v, _, exec_tmrLoadOp s c sz v, rfl, ?divider, ?counter, ?others⟩
  case divider => simp only [State.withTmr_tmr, chan_withChan_same, TmrChannel.load, writtenHalf_toNat_of_fits hv]
  case counter => simp only [State.withTmr_tmr, chan_withChan_same, TmrChannel.load]
  case others => exact fun d hd => chan_withChan_other s.tmr _ hd

/-! ## The tick -/

/-- A timer tick at the head of the queue is one tick of the timer (R145). -/
theorem step_serviceTmr {s : State} {rest : List Op} (h : s.pending = .service .tmr :: rest) :
    step s = .next ((s.start rest).withTmr s.tmr.tick) := by
  rw [step, h]; rfl

/-- Settles O18: the timer's tick is the three channels' ticks, each by `TmrChannel.tick_spec`. -/
theorem timerTickRule : Obligations.TimerTickRule := by
  intro s rest h
  refine ⟨_, step_serviceTmr h, rfl, fun c => ?_⟩
  rw [State.withTmr_tmr, chan_tick]
  exact (chan s.tmr c).tick_spec

end Sys2Proof.Proofs
end

section
/-! PROOFS. The UART's registers (R178 to R209, but the command and transmit writes): what a recompute leaves in the
words of the statements, then the mode, status and receive registers once for both ports, then the shared registers. -/

namespace Sys2Proof.Proofs

open Sys2Proof.Machine Sys2Proof.Claims Sys2Proof.Laws

/-! ## The interrupt and the frame of a recompute -/

/-- A recompute keeps whatever lies outside the UART, the CSR and the history as it was in an earlier state s. -/
theorem recompute_frame_from {s r : State} (h : r = { s with uart := r.uart, history := r.history }) :
    r.recompute = { s with uart := r.recompute.uart, csr := r.recompute.csr, history := r.recompute.history } := by
  rw [State.recompute_uart]
  exact r.recompute_frame.trans
    (congrArg (fun x : State => { x with csr := r.recompute.csr, history := r.recompute.history }) h)

/-- A recompute after the events `evs` is what the statements ask of the interrupt (R161). -/
theorem interruptFollows_recompute {s r : State} {evs : List OutEvent} (hcsr : r.csr = s.csr)
    (hparams : r.params = s.params) (hhist : r.history = s.history ++ evs) :
    interruptFollows evs s r.recompute := by
  unfold interruptFollows
  rw [State.recompute_csr, State.recompute_history, State.recompute_uart, hcsr, hparams, hhist]
  refine ⟨isWithBit_setBit s.csr.bits 3 r.uart.live, ?history⟩
  simp only [Uart.live_iff]

/-- The recompute of a UART put in place of the old one emits nothing before its own event. -/
theorem interruptFollows_withUart (s : State) (u : Uart) : interruptFollows [] s (s.withUart u).recompute :=
  interruptFollows_recompute rfl rfl (List.append_nil _).symm

/-! ## Answers and written bytes -/

/-- A read's answer is its value mod 2^size (R9). -/
theorem answers_answerRead_mod {n : Nat} (s : State) (sz : AccSize) (v : BitVec n) :
    answers (s.answerRead sz v) sz (v.toNat % 2 ^ sz.bits) := by
  refine ⟨readData sz v, State.answerRead_returned s sz v, ?size, ?value⟩
  case size => cases sz <;> rfl
  case value => cases sz <;> exact BitVec.toNat_setWidth _ v

/-- Two bytes side by side, as a number. -/
theorem append_bytes_toNat (hi lo : Byte) : (hi ++ lo : Half).toNat = 256 * hi.toNat + lo.toNat := by
  rw [BitVec.toNat_append, ← Nat.shiftLeft_add_eq_or_of_lt lo.isLt, Nat.shiftLeft_eq, Nat.mul_comm]

theorem writtenByte_toNat (sz : AccSize) (v : Word) : (writtenByte sz v).toNat = v.toNat % 256 := by
  rw [writtenByte_eq, BitVec.toNat_setWidth]

/-! ## The mode registers (R163) -/

theorem modeReadOp_readDecodes (p : Port) (sz : AccSize) : readDecodes .uart (portBase p) sz (modeReadOp p sz) := by
  cases p with
  | a => exact readDecodes_of_roundTrip (RoundTrip.uartRdMra sz) rfl rfl rfl
  | b => exact readDecodes_of_roundTrip (RoundTrip.uartRdMrb sz) rfl rfl rfl

theorem modeWriteOp_writeDecodes (p : Port) (sz : AccSize) (v : Word) :
    writeDecodes .uart (0x80 + portBase p) sz v (modeWriteOp p sz) := by
  cases p with
  | a => exact writeDecodes_of_roundTrip (RoundTrip.uartWrMra sz v) rfl rfl rfl
  | b => exact writeDecodes_of_roundTrip (RoundTrip.uartWrMrb sz v) rfl rfl rfl

theorem exec_modeReadOp (s : State) (p : Port) (sz : AccSize) :
    exec (modeReadOp p sz) s = .next (modeRead p sz s) := by
  cases p <;> rfl

theorem exec_modeWriteOp (s : State) (p : Port) (sz : AccSize) (v : Word) :
    exec (modeWriteOp p sz v) s = .next (modeWrite p (writtenByte sz v) s) := by
  cases p <;> rfl

@[simp] theorem modeRead_uart (p : Port) (sz : AccSize) (s : State) :
    (modeRead p sz s).uart = s.uart.setPort p (s.uart.port p).cycleMode := rfl

@[simp] theorem modeWrite_uart (p : Port) (b : Byte) (s : State) :
    (modeWrite p b s).uart = s.uart.setPort p ((s.uart.port p).storeMode b).cycleMode := rfl

/-- The one-bit cursor moves to the other register. -/
theorem cycleMode_modePtr_toNat (q : UartPort) : q.cycleMode.modePtr.toNat = 1 - q.modePtr.toNat := by
  have flip : ∀ c : BitVec 1, (1 - c).toNat = 1 - c.toNat := by decide
  exact flip q.modePtr

/-- A store writes the register under the cursor and no other field. -/
theorem storeMode_eq (q : UartPort) (b : Byte) :
    q.storeMode b = { q with
      mode0 := if q.modePtr = 0 then b else q.mode0
      mode1 := if q.modePtr = 0 then q.mode1 else b } := by
  unfold UartPort.storeMode
  by_cases h : q.modePtr = 0
  · simp only [if_pos h]
  · simp only [if_neg h]

/-- Settles O21: the read answers the byte under the cursor and replaces the port by the one with its cursor moved. -/
theorem modeReadCyclesTheCursor : Obligations.ModeReadCyclesTheCursor := by
  intro s p sz
  refine ⟨modeReadOp_readDecodes p sz, _, exec_modeReadOp s p sz, rfl, ?uart, ?cursor, ?answer⟩
  case uart => rw [modeRead_uart, Uart.port_setPort_same]; rfl
  case cursor => rw [modeRead_uart, Uart.port_setPort_same]; exact cycleMode_modePtr_toNat _
  case answer => exact answers_answerRead _ sz (s.uart.port p).modeReg (by decide)

/-- Settles O22: the store, which keeps the cursor, then the move of the cursor. -/
theorem modeWriteStoresUnderTheCursor : Obligations.ModeWriteStoresUnderTheCursor := by
  intro s p sz v
  refine ⟨modeWriteOp_writeDecodes p sz v, _, exec_modeWriteOp s p sz v, rfl, ?uart, ?cursor⟩
  case uart => rw [modeWrite_uart, Uart.port_setPort_same, storeMode_eq, writtenByte_eq]; rfl
  case cursor =>
    rw [modeWrite_uart, Uart.port_setPort_same, cycleMode_modePtr_toNat, UartPort.storeMode_modePtr]

/-! ## Status and receive reads (R164, R165) -/

theorem statusReadOp_readDecodes (p : Port) (sz : AccSize) :
    readDecodes .uart (portBase p + 1) sz (statusReadOp p sz) := by
  cases p with
  | a => exact readDecodes_of_roundTrip (RoundTrip.uartRdSra sz) rfl rfl rfl
  | b => exact readDecodes_of_roundTrip (RoundTrip.uartRdSrb sz) rfl rfl rfl

theorem rxReadOp_readDecodes (p : Port) (sz : AccSize) : readDecodes .uart (portBase p + 3) sz (rxReadOp p sz) := by
  cases p with
  | a => exact readDecodes_of_roundTrip (RoundTrip.uartRdRhra sz) rfl rfl rfl
  | b => exact readDecodes_of_roundTrip (RoundTrip.uartRdRhrb sz) rfl rfl rfl

theorem exec_statusReadOp (s : State) (p : Port) (sz : AccSize) :
    exec (statusReadOp p sz) s = .next ((clearRx p s).answerRead sz (s.uart.port p).status) := by
  cases p <;> rfl

theorem exec_rxReadOp (s : State) (p : Port) (sz : AccSize) :
    exec (rxReadOp p sz) s = .next ((clearRx p s).answerRead sz (s.uart.port p).composite) := by
  cases p <;> rfl

theorem composite_toNat (q : UartPort) : q.composite.toNat = 256 * q.status.toNat + q.rxbuf.toNat :=
  append_bytes_toNat q.status q.rxbuf

/-- Clearing the receive-ready state clears RXR of one port and its istat bit (R164, R165). -/
theorem rxCleared_setRx (p : Port) (u : Uart) : rxCleared p u (u.setRx p false) := by
  cases p with
  | a => exact ⟨rfl, isWithBit_setBit u.a.status 0 false, isWithBit_setBit u.istat 1 false⟩
  | b => exact ⟨rfl, isWithBit_setBit u.b.status 0 false, isWithBit_setBit u.istat 5 false⟩

/-- What a read that clears the receive-ready state leaves, whatever it answers. -/
theorem clearRx_answerRead_spec {n : Nat} (p : Port) (s t : State) (sz : AccSize) (v : BitVec n)
    (ht : t = (clearRx p s).answerRead sz v) :
    t = { s with uart := t.uart, csr := t.csr, history := t.history, returned := t.returned } ∧
      rxCleared p s.uart t.uart ∧ interruptFollows [] s t := by
  subst ht
  refine ⟨?frame, ?cleared, interruptFollows_withUart s (s.uart.setRx p false)⟩
  case frame =>
    have hframe : clearRx p s = { s with uart := (clearRx p s).uart, csr := (clearRx p s).csr,
                                         history := (clearRx p s).history } := recompute_frame_from rfl
    exact congrArg (fun x : State => x.answerRead sz v) hframe
  case cleared =>
    rw [State.answerRead_uart, clearRx_uart]
    exact rxCleared_setRx p s.uart

/-- Settles O24: the status answered is the one before the clear, 8 bits wide. -/
theorem statusReadReturnsThenClears : Obligations.StatusReadReturnsThenClears := by
  intro s p sz
  obtain ⟨hframe, hcleared, hirq⟩ := clearRx_answerRead_spec p s _ sz (s.uart.port p).status rfl
  exact ⟨statusReadOp_readDecodes p sz, _, exec_statusReadOp s p sz, hframe,
    answers_answerRead _ sz _ (by decide), hcleared, hirq⟩

/-- Settles O25: the composite answered is the one before the clear, cut to the size. -/
theorem receiveReadReturnsComposite : Obligations.ReceiveReadReturnsComposite := by
  intro s p sz
  obtain ⟨hframe, hcleared, hirq⟩ := clearRx_answerRead_spec p s _ sz (s.uart.port p).composite rfl
  refine ⟨rxReadOp_readDecodes p sz, _, exec_rxReadOp s p sz, hframe, ?answer, hcleared, hirq⟩
  rw [← composite_toNat]
  exact answers_answerRead_mod _ sz _

/-! ## The shared registers (R183, R192, R193, R198 to R201) -/

theorem exec_uartRdIsr (s : State) (sz : AccSize) :
    exec (.uartRdIsr sz) s = .next (s.answerRead sz s.uart.istat) := rfl

theorem exec_uartRdStart (s : State) (sz : AccSize) :
    exec (.uartRdStart sz) s =
      .next ((s.withUart { s.uart with counterEnabled := true }).answerRead sz (0 : Byte)) := rfl

theorem exec_uartRdStop (s : State) (sz : AccSize) :
    exec (.uartRdStop sz) s =
      .next ((s.withUart { s.uart with
        counterEnabled := false
        istat := setBit s.uart.istat criBit false }).recompute.answerRead sz (0 : Byte)) := rfl

/-- Settles O26: the stop read alone changes a flag, and it alone recomputes. -/
theorem isrStartAndStopReads : Obligations.IsrStartAndStopReads := by
  intro s sz
  have zero : ∀ r : State, answers (r.answerRead sz (0 : Byte)) sz 0 :=
    fun r => answers_answerRead r sz (0 : Byte) (by decide)
  refine ⟨readDecodes_of_roundTrip (RoundTrip.uartRdIsr sz) rfl rfl rfl,
    readDecodes_of_roundTrip (RoundTrip.uartRdStart sz) rfl rfl rfl,
    readDecodes_of_roundTrip (RoundTrip.uartRdStop sz) rfl rfl rfl, ?isr, ?start, ?stop⟩
  case isr => exact read_of_exec (exec_uartRdIsr s sz) (by decide) rfl
  case start => exact ⟨_, exec_uartRdStart s sz, rfl, zero _⟩
  case stop =>
    refine ⟨_, exec_uartRdStop s sz, ?frame, ?uart, ?cri, zero _, interruptFollows_withUart s _⟩
    case frame => exact congrArg (fun x : State => x.answerRead sz (0 : Byte)) (recompute_frame_from rfl)
    case uart => simp only [State.answerRead_uart, State.recompute_uart, State.withUart_uart]
    case cri =>
      simp only [State.answerRead_uart, State.recompute_uart, State.withUart_uart]
      exact isWithBit_setBit s.uart.istat 3 false

theorem exec_uartWrAcr (s : State) (sz : AccSize) (v : Word) :
    exec (.uartWrAcr sz v) s = .next (s.withUart { s.uart with acr := writtenByte sz v }) := rfl

theorem exec_uartWrImr (s : State) (sz : AccSize) (v : Word) :
    exec (.uartWrImr sz v) s = .next (s.withUart { s.uart with imask := writtenByte sz v }).recompute := rfl

theorem exec_uartWrCtur (s : State) (sz : AccSize) (v : Word) :
    exec (.uartWrCtur sz v) s = .next (presetHigh (writtenByte sz v) s) := rfl

theorem exec_uartWrCtlr (s : State) (sz : AccSize) (v : Word) :
    exec (.uartWrCtlr sz v) s = .next (presetLow (writtenByte sz v) s) := rfl

/-- The high preset byte replaces the high half (R168). -/
theorem setHighByte_toNat (v : Half) (b : Byte) : (setHighByte v b).toNat = 256 * b.toNat + v.toNat % 256 := by
  rw [setHighByte, append_bytes_toNat, BitVec.toNat_setWidth]

/-- The low preset byte replaces the low half (R168). -/
theorem setLowByte_toNat (v : Half) (b : Byte) : (setLowByte v b).toNat = 256 * (v.toNat / 256) + b.toNat := by
  have hv : v.toNat < 65536 := v.isLt
  rw [setLowByte, append_bytes_toNat, BitVec.extractLsb'_toNat, Nat.shiftRight_eq_div_pow]
  omega

/-- Settles O30: three writes replace fields of the UART; the mask write also recomputes. -/
theorem sharedRegisterWrites : Obligations.SharedRegisterWrites := by
  intro s sz v
  refine ⟨writeDecodes_of_roundTrip (RoundTrip.uartWrAcr sz v) rfl rfl rfl,
    writeDecodes_of_roundTrip (RoundTrip.uartWrImr sz v) rfl rfl rfl,
    writeDecodes_of_roundTrip (RoundTrip.uartWrCtur sz v) rfl rfl rfl,
    writeDecodes_of_roundTrip (RoundTrip.uartWrCtlr sz v) rfl rfl rfl, ?acr, ?presetHigh, ?presetLow, ?imask⟩
  case acr => rw [exec_uartWrAcr, writtenByte_eq]; rfl
  case presetHigh =>
    have half : ∀ c : Half, (setHighByte c (writtenByte sz v)).toNat = 256 * (v.toNat % 256) + c.toNat % 256 :=
      fun c => by rw [setHighByte_toNat, writtenByte_toNat]
    exact ⟨_, exec_uartWrCtur s sz v, rfl, half _, half _⟩
  case presetLow =>
    have half : ∀ c : Half, (setLowByte c (writtenByte sz v)).toNat = 256 * (c.toNat / 256) + v.toNat % 256 :=
      fun c => by rw [setLowByte_toNat, writtenByte_toNat]
    exact ⟨_, exec_uartWrCtlr s sz v, rfl, half _, half _⟩
  case imask =>
    refine ⟨_, exec_uartWrImr s sz v, ?frame, interruptFollows_withUart s _⟩
    rw [← writtenByte_eq sz v]
    exact State.recompute_frame _

end Sys2Proof.Proofs
end

section
/-! PROOFS. The UART's command and transmit writes (R166, R167). A command acts in three parts, each with its own
lemmas: the enable bits on the port, the misc command on the UART, the transmit update on both ports. -/

namespace Sys2Proof.Proofs

open Sys2Proof.Machine Sys2Proof.Claims Sys2Proof.Laws

/-! ## Frames of the UART -/

/-- From u to u' only the ports and istat may change: the shared registers and the counter are kept. -/
def keepsShared (u u' : Uart) : Prop := u' = { u with a := u'.a, b := u'.b, istat := u'.istat }

theorem keepsShared_trans {u v w : Uart} (huv : keepsShared u v) (hvw : keepsShared v w) : keepsShared u w :=
  hvw.trans (congrArg (fun x : Uart => { x with a := w.a, b := w.b, istat := w.istat }) huv)

theorem keepsShared_setPort (u : Uart) (p : Port) (q : UartPort) : keepsShared u (u.setPort p q) := by
  cases p <;> rfl

theorem keepsShared_txStatus (u : Uart) : keepsShared u u.txStatus := rfl

theorem other_ne (p : Port) : other p ≠ p := by
  cases p <;> decide

/-! ## The transmit update (R162) -/

/-- The transmit update turns a port of the given enable and status into one `statusIs` describes. -/
theorem statusIs_txStatus {q : UartPort} {v : Byte} {en : Bool} {keep : Nat → Bool} (hen : q.txEn = en)
    (hstatus : ∀ j, j ≠ 2 → q.status.getLsbD j = (keep j && v.getLsbD j)) :
    statusIs v q.txStatus.status en keep := by
  intro j hj
  rw [UartPort.txStatus_getLsbD q j hj]
  split
  · exact hen
  · exact hstatus j (by omega)

/-- The transmit update of a port keeps every status bit but TXR and TXE. -/
theorem statusIs_txStatus_self (q : UartPort) : statusIs q.status q.txStatus.status q.txEn (fun _ => true) :=
  statusIs_txStatus rfl fun _ _ => (Bool.true_and _).symm

/-! ## The misc commands (R170 to R177) -/

theorem setBit_false_getLsbD {n : Nat} (v : BitVec n) (i j : Nat) :
    (setBit v i false).getLsbD j = (!(j == i) && v.getLsbD j) := by
  rw [setBit_getLsbD]
  by_cases h : j = i
  · subst h
    by_cases hj : j < n
    · simp [hj]
    · simp [BitVec.getLsbD_of_ge v j (Nat.le_of_not_lt hj)]
  · simp [h, Ne.symm h]

/-- The status byte a misc command leaves, before the transmit update (R172 to R174). -/
def miscStatus (m : Nat) (status : Byte) : Byte :=
  if m = 2 then setBit status rxrBit false
  else if m = 3 then setBit status txrBit false
  else if m = 4 then setBit (setBit (setBit status 4 false) 5 false) 6 false
  else status

/-- What a misc command does: it writes one port, and DIS_RX clears that port's receive istat bit. -/
theorem misc_eq (p : Port) (m : BitVec 3) (u : Uart) :
    misc p m u =
      { u.setPort p { u.port p with
          rxEn := if m.toNat = 2 then false else (u.port p).rxEn
          modePtr := if m.toNat = 1 then 0 else (u.port p).modePtr
          status := miscStatus m.toNat (u.port p).status } with
        istat := if m.toNat = 2 then setBit u.istat (rxBit p) false else u.istat } := by
  unfold misc
  have hm : m.toNat < 8 := m.isLt
  generalize m.toNat = k at hm ⊢
  interval_cases k <;> cases p <;> rfl

/-- Which status bits a misc command keeps; TXR is left to the transmit update that follows. -/
theorem miscStatus_getLsbD (m : Nat) (status : Byte) (j : Nat) (hj : j ≠ 2) :
    (miscStatus m status).getLsbD j =
      ((!(m == 2 && j == 0) && !(m == 4 && (j == 4 || j == 5 || j == 6))) && status.getLsbD j) := by
  unfold miscStatus
  split
  case isTrue h => simp [h, setBit_false_getLsbD, rxrBit]
  case isFalse h2 =>
    split
    case isTrue h => simp [h, setBit_false_getLsbD, txrBit, hj]
    case isFalse =>
      split
      case isTrue h =>
        simp only [h, setBit_false_getLsbD, Bool.not_or, Nat.reduceBEq, Bool.false_and, Bool.not_false,
          Bool.true_and]
        ac_rfl
      case isFalse h4 => simp [h2, h4]

/-! ## The command byte (R166) -/

/-- The enable bits in the words of the statements: ETX before DTX, ERX before DRX. -/
theorem enables_eq (q : UartPort) (b : Byte) :
    q.enables b = { q with
      cmd := b
      txEn := txAfter (b.getLsbD 2) (b.getLsbD 3) q.txEn
      rxEn := txAfter (b.getLsbD 0) (b.getLsbD 1) q.rxEn } := by
  have h : ∀ on off old : Bool, (if on then true else if off then false else old) = txAfter on off old := by decide
  simp only [UartPort.enables, h]

/-- The UART a command byte leaves before the transmit update: the enable bits, then the misc command. -/
def commanded (p : Port) (b : Byte) (m : BitVec 3) (u : Uart) : Uart := misc p m (u.setPort p ((u.port p).enables b))

theorem commandWith_misc_eq (p : Port) (b : Byte) (m : BitVec 3) (s : State) :
    commandWith p b (fun q => misc q m) s = (s.withUart (commanded p b m s.uart).txStatus).recompute := rfl

theorem commanded_keepsShared (p : Port) (b : Byte) (m : BitVec 3) (u : Uart) :
    keepsShared u (commanded p b m u) := by
  rw [commanded, misc_eq]
  cases p <;> rfl

/-- The port a command names. -/
theorem commanded_port (p : Port) (b : Byte) (m : BitVec 3) (u : Uart) :
    (commanded p b m u).port p =
      { u.port p with
        cmd := b
        txEn := txAfter (b.getLsbD 2) (b.getLsbD 3) (u.port p).txEn
        rxEn := if m.toNat = 2 then false else txAfter (b.getLsbD 0) (b.getLsbD 1) (u.port p).rxEn
        modePtr := if m.toNat = 1 then 0 else (u.port p).modePtr
        status := miscStatus m.toNat (u.port p).status } := by
  rw [commanded, misc_eq, enables_eq]
  cases p <;> rfl

theorem commanded_other (p : Port) (b : Byte) (m : BitVec 3) (u : Uart) :
    (commanded p b m u).port (other p) = u.port (other p) := by
  rw [commanded, misc_eq]
  cases p <;> rfl

theorem commanded_istat_getLsbD (p : Port) (b : Byte) (m : BitVec 3) (u : Uart) (j : Nat) :
    (commanded p b m u).istat.getLsbD j =
      if m.toNat = 2 ∧ j = rxBit p then false else u.istat.getLsbD j := by
  rw [commanded, misc_eq, Uart.setPort_istat]
  by_cases hm : m.toNat = 2 <;> by_cases hj : j = rxBit p <;> simp [hm, hj, setBit_false_getLsbD]

/-- What any command byte with any misc command leaves (R166, R162, R170 to R177). -/
theorem commandDone_commandWith (p : Port) (b : Byte) (m : BitVec 3) (s : State) :
    commandDone p b m.toNat (txAfter (b.getLsbD 2) (b.getLsbD 3) (s.uart.port p).txEn)
      (txAfter (b.getLsbD 0) (b.getLsbD 1) (s.uart.port p).rxEn) s (commandWith p b (fun q => misc q m) s) := by
  have hport := commanded_port p b m s.uart
  have hother := commanded_other p b m s.uart
  rw [commandWith_misc_eq]
  unfold commandDone
  rw [State.recompute_uart, State.withUart_uart, Uart.txStatus_port, Uart.txStatus_port]
  refine ⟨?frame, ?shared, ?port, ?otherPort, ?status, ?otherStatus, ?istat, interruptFollows_withUart s _⟩
  case frame => exact State.recompute_frame _
  case shared => exact keepsShared_trans (commanded_keepsShared p b m s.uart) (keepsShared_txStatus _)
  case port => rw [hport]; rfl
  case otherPort => rw [hother]; rfl
  case status => rw [hport]; exact statusIs_txStatus rfl fun j hj => miscStatus_getLsbD m.toNat _ j hj
  case otherStatus => rw [hother]; exact statusIs_txStatus_self _
  case istat =>
    intro j hj
    rw [Uart.txStatus_istat _ j hj, commanded_istat_getLsbD]
    rfl

theorem commandWriteOp_writeDecodes (p : Port) (sz : AccSize) (v : Word) :
    writeDecodes .uart (0x80 + portBase p + 2) sz v (commandWriteOp p sz) := by
  cases p with
  | a => exact writeDecodes_of_roundTrip (RoundTrip.uartWrCra sz v) rfl rfl rfl
  | b => exact writeDecodes_of_roundTrip (RoundTrip.uartWrCrb sz v) rfl rfl rfl

theorem exec_commandWriteOp (s : State) (p : Port) (sz : AccSize) (v : Word) :
    exec (commandWriteOp p sz v) s =
      .next (commandWith p (v.setWidth 8) (fun q => misc q ((v.setWidth 8).extractLsb' 4 3)) s) := by
  rw [← writtenByte_eq sz v]
  cases p <;> rfl

/-- The misc command of a written byte, as a number (R96). -/
theorem miscField_toNat (v : Word) : ((v.setWidth 8).extractLsb' 4 3).toNat = v.toNat / 16 % 8 := by
  rw [BitVec.extractLsb'_toNat, BitVec.toNat_setWidth, Nat.shiftRight_eq_div_pow]
  omega

/-- Settles O27: the byte written is a command byte with the misc command of its bits 6 to 4. -/
theorem commandWriteRule : Obligations.CommandWriteRule := by
  intro s p sz v
  have hbit : ∀ j, j < 8 → (v.setWidth 8).getLsbD j = v.getLsbD j := fun j hj => by
    rw [BitVec.getLsbD_setWidth, decide_eq_true hj, Bool.true_and]
  have hdone := commandDone_commandWith p (v.setWidth 8) ((v.setWidth 8).extractLsb' 4 3) s
  rw [miscField_toNat, hbit 0 (by decide), hbit 1 (by decide), hbit 2 (by decide), hbit 3 (by decide)] at hdone
  exact ⟨commandWriteOp_writeDecodes p sz v, _, exec_commandWriteOp s p sz v, hdone⟩

theorem exec_commandRow (s : State) {m : Nat} (hm : m < 8) (p : Port) (x dtx etx drx erx : Bool) :
    exec (commandRow m p x dtx etx drx erx) s =
      .next (commandWith p (uartCommandByte x (BitVec.ofNat 3 m) dtx etx drx erx)
        (fun q => misc q (BitVec.ofNat 3 m)) s) := by
  interval_cases m <;> rfl

theorem uartCommandByte_eq_ofNat (x : Bool) (m : BitVec 3) (dtx etx drx erx : Bool) :
    uartCommandByte x m dtx etx drx erx = BitVec.ofNat 8 (commandByteNat x m.toNat dtx etx drx erx) := by
  revert x m dtx etx drx erx; decide

/-- The enable bits of a command byte (R96). -/
theorem uartCommandByte_enableBits (x : Bool) (m : BitVec 3) (dtx etx drx erx : Bool) :
    (uartCommandByte x m dtx etx drx erx).getLsbD 0 = erx ∧ (uartCommandByte x m dtx etx drx erx).getLsbD 1 = drx ∧
      (uartCommandByte x m dtx etx drx erx).getLsbD 2 = etx ∧
      (uartCommandByte x m dtx etx drx erx).getLsbD 3 = dtx := by
  revert x m dtx etx drx erx; decide

/-- Settles O28: a row's fields make the command byte it keeps, and its misc command is the row's number. -/
theorem commandRowsRule : Obligations.CommandRowsRule := by
  intro s m p x dtx etx drx erx hm
  have hmisc : (BitVec.ofNat 3 m).toNat = m := Nat.mod_eq_of_lt hm
  obtain ⟨herx, hdrx, hetx, hdtx⟩ := uartCommandByte_enableBits x (BitVec.ofNat 3 m) dtx etx drx erx
  have hdone := commandDone_commandWith p (uartCommandByte x (BitVec.ofNat 3 m) dtx etx drx erx) (BitVec.ofNat 3 m) s
  rw [herx, hdrx, hetx, hdtx] at hdone
  refine ⟨_, exec_commandRow s hm p x dtx etx drx erx, ?_⟩
  rw [uartCommandByte_eq_ofNat, hmisc] at hdone ⊢
  exact hdone

/-! ## The transmit write (R167) -/

/-- The UART with a byte in the transmit buffer of a port. -/
def withTxbuf (p : Port) (b : Byte) (u : Uart) : Uart := u.setPort p { u.port p with txbuf := b }

theorem withTxbuf_port (p : Port) (b : Byte) (u : Uart) :
    (withTxbuf p b u).port p = { u.port p with txbuf := b } := Uart.port_setPort_same u p _

theorem withTxbuf_other (p : Port) (b : Byte) (u : Uart) :
    (withTxbuf p b u).port (other p) = u.port (other p) := Uart.port_setPort_other u p _ _ (other_ne p)

/-- The byte kept leaves the status and the transmitter enable of both ports. -/
theorem withTxbuf_status_txEn (p q : Port) (b : Byte) (u : Uart) :
    ((withTxbuf p b u).port q).status = (u.port q).status ∧
      ((withTxbuf p b u).port q).txEn = (u.port q).txEn := by
  cases p <;> cases q <;> exact ⟨rfl, rfl⟩

theorem txWriteOp_writeDecodes (p : Port) (sz : AccSize) (v : Word) :
    writeDecodes .uart (0x80 + portBase p + 3) sz v (txWriteOp p sz) := by
  cases p with
  | a => exact writeDecodes_of_roundTrip (RoundTrip.uartWrThra sz v) rfl rfl rfl
  | b => exact writeDecodes_of_roundTrip (RoundTrip.uartWrThrb sz v) rfl rfl rfl

theorem exec_txWriteOp (s : State) (p : Port) (sz : AccSize) (v : Word) :
    exec (txWriteOp p sz v) s = .next (txWrite p (v.setWidth 8) s) := by
  rw [← writtenByte_eq sz v]
  cases p <;> rfl

/-- A transmit write: the byte kept, its event where the transmitter is enabled, the transmit update. -/
theorem txWrite_eq (p : Port) (b : Byte) (s : State) :
    txWrite p b s =
      State.recompute { s with
        uart := (withTxbuf p b s.uart).txStatus
        history := s.history ++ if (s.uart.port p).txEn then [.tx p b] else [] } := by
  unfold txWrite
  cases (s.uart.port p).txEn with
  | true => rfl
  | false => simp only [List.append_nil, Bool.false_eq_true, if_false]; rfl

/-- Settles O29: the byte kept changes no status and no enable, so the transmit update reads those of before. -/
theorem transmitWriteRule : Obligations.TransmitWriteRule := by
  intro s p sz v
  refine ⟨txWriteOp_writeDecodes p sz v, _, exec_txWriteOp s p sz v, ?_⟩
  rw [txWrite_eq, State.recompute_uart]
  dsimp only
  refine ⟨?frame, ?shared, ?port, ?otherPort, ?status, ?istat, interruptFollows_recompute rfl rfl rfl⟩
  case frame => exact State.recompute_frame _
  case shared => exact keepsShared_trans (keepsShared_setPort s.uart p _) (keepsShared_txStatus _)
  case port => rw [Uart.txStatus_port, withTxbuf_port]; rfl
  case otherPort => rw [Uart.txStatus_port, withTxbuf_other]; rfl
  case status =>
    intro q
    obtain ⟨hstatus, hen⟩ := withTxbuf_status_txEn p q (v.setWidth 8) s.uart
    rw [Uart.txStatus_port, ← hstatus, ← hen]
    exact statusIs_txStatus_self _
  case istat =>
    intro j hj
    rw [Uart.txStatus_istat _ j hj]
    cases p <;> rfl

end Sys2Proof.Proofs
end

section
/-! PROOFS. The UART's tick (R210 to R212): the counter's part by `counterTick_cases`, then what the poll does to a
character offered, told port by port (R169). -/

namespace Sys2Proof.Proofs

open Sys2Proof.Machine Sys2Proof.Claims Sys2Proof.Laws

/-! ## The counter's part of the tick (R210) -/

/-- A UART tick at the head of the queue is `Service(uart)` (R212). -/
theorem step_serviceUart {s : State} {rest : List Op} (h : s.pending = .service .uart :: rest) :
    step s = .next (serviceUart (s.start rest)) := by
  rw [step, h]; rfl

theorem counterTick_inputs (s : State) : (counterTick s).inputs = s.inputs := by
  rcases counterTick_cases s with ⟨-, e⟩ | ⟨-, -, e⟩ | ⟨-, -, e⟩ <;> rw [e]
  · rfl
  · exact State.recompute_inputs _

/-- The counter's part leaves both ports alone. -/
theorem counterTick_port (s : State) (p : Port) : (counterTick s).uart.port p = s.uart.port p := by
  rcases counterTick_cases s with ⟨-, e⟩ | ⟨-, -, e⟩ | ⟨-, -, e⟩ <;> rw [e]
  · cases p <;> rfl
  · rw [State.recompute_uart]
    cases p <;> rfl

theorem counterTick_of_disabled {s : State} (h : s.uart.counterEnabled = false) : counterTick s = s := by
  rw [counterTick, h]; rfl

theorem counterTick_of_above {s : State} (hen : s.uart.counterEnabled = true)
    (habove : s.params.uartCtrStep < s.uart.counterValue.toNat) :
    counterTick s =
      s.withUart { s.uart with counterValue := s.uart.counterValue - BitVec.ofNat 16 s.params.uartCtrStep } := by
  rw [counterTick, if_pos hen, if_neg (Nat.not_le_of_lt habove)]

theorem counterTick_of_expired {s : State} (hen : s.uart.counterEnabled = true)
    (hle : s.uart.counterValue.toNat ≤ s.params.uartCtrStep) :
    counterTick s =
      (s.withUart { s.uart with
        istat := setBit s.uart.istat criBit true
        counterValue := s.uart.counterSet
        counterEnabled := false }).recompute := by
  rw [counterTick, if_pos hen, if_pos hle]

theorem recompute_withInputs (s : State) (i : Inputs) :
    State.recompute { s with inputs := i } = { s.recompute with inputs := i } := by
  rw [State.recompute_frame s, State.recompute_frame { s with inputs := i }]
  simp only [State.recompute_csr, State.recompute_history]

/-- The inputs play no part in the counter's tick. -/
theorem counterTick_withInputs (s : State) (i : Inputs) :
    counterTick { s with inputs := i } = { counterTick s with inputs := i } := by
  rcases counterTick_cases s with ⟨hoff, e⟩ | ⟨hen, habove, e⟩ | ⟨hen, hle, e⟩ <;> rw [e]
  · exact counterTick_of_disabled hoff
  · exact counterTick_of_above (s := { s with inputs := i }) hen habove
  · rw [counterTick_of_expired (s := { s with inputs := i }) hen hle]
    exact recompute_withInputs (s.withUart _) i

/-- A step below the count is subtracted exactly. -/
theorem sub_ofNat_toNat_of_lt {v : Half} {n : Nat} (h : n < v.toNat) : (v - BitVec.ofNat 16 n).toNat = v.toNat - n := by
  have hv : v.toNat < 65536 := v.isLt
  rw [BitVec.toNat_sub, BitVec.toNat_ofNat]
  omega

/-- With no character offered the tick is the counter's part alone. -/
theorem serviceUart_of_no_character {s : State} (h : s.inputs.kbd = none) : serviceUart s = counterTick s := by
  have hk : (counterTick s).inputs.kbd = none := by rw [counterTick_inputs, h]
  rcases poll_cases (counterTick s) with ⟨-, e⟩ | ⟨c, hc, -⟩ | ⟨c, hc, -⟩
  · exact e
  all_goals rw [hk] at hc; cases hc

/-- Settles O31: the three ways of `counterTick` from the state the tick starts in. -/
theorem counterTickRule : Obligations.CounterTickRule := by
  intro s rest hpending hkbd
  have hstep : step s = .next (counterTick (s.start rest)) := by
    rw [step_serviceUart hpending, serviceUart_of_no_character (s := s.start rest) hkbd]
  rw [hstep]
  refine ⟨fun hoff => ?disabled, fun hen habove => ?counts, fun hen hle => ?expires⟩
  case disabled => rw [counterTick_of_disabled (s := s.start rest) hoff]; rfl
  case counts =>
    rw [counterTick_of_above (s := s.start rest) hen habove]
    exact ⟨_, rfl, rfl, sub_ofNat_toNat_of_lt habove⟩
  case expires =>
    rw [counterTick_of_expired (s := s.start rest) hen hle]
    refine ⟨_, rfl, recompute_frame_from (s := s.start rest) rfl, ?uart, ?cri,
      interruptFollows_withUart (s.start rest) _⟩
    case uart => rw [State.recompute_uart]; rfl
    case cri => rw [State.recompute_uart]; exact isWithBit_setBit s.uart.istat 3 true

/-! ## A character delivered (R169) -/

theorem isWithBit_self {n : Nat} {v : BitVec n} {k : Nat} {b : Bool} (h : v.getLsbD k = b) : isWithBit v v k b := by
  intro j _
  split
  case isTrue hj => rw [hj, h]
  case isFalse => rfl

/-- RXR of a port follows its receiver's enable when a byte is delivered to it. -/
theorem deliverTo_status (u : Uart) (c : Byte) (p : Port) :
    isWithBit (u.port p).status ((u.deliverTo c p).port p).status 0 (u.port p).rxEn := by
  unfold Uart.deliverTo
  cases hen : (u.port p).rxEn with
  | false => rw [if_neg Bool.false_ne_true, Uart.setRx_port_same]; exact isWithBit_setBit _ 0 false
  | true =>
    rw [if_pos rfl]
    split
    case isTrue hfull => exact isWithBit_self hfull
    case isFalse => rw [Uart.setRx_port_same, Uart.port_setPort_same]; exact isWithBit_setBit _ 0 true

/-- The receive istat bit of the port is set by a byte taken, kept by a full receiver, cleared by a disabled one. -/
theorem deliverTo_istat (u : Uart) (c : Byte) (p : Port) (j : Nat) (hj : j < 8) :
    (u.deliverTo c p).istat.getLsbD j =
      if j = rxBit p then (u.port p).rxEn && (!(u.port p).status.getLsbD 0 || u.istat.getLsbD j)
      else u.istat.getLsbD j := by
  unfold Uart.deliverTo
  cases hen : (u.port p).rxEn with
  | false =>
    rw [if_neg Bool.false_ne_true, Uart.setRx_istat, isWithBit_setBit u.istat (rxBit p) false j hj, Bool.false_and]
  | true =>
    rw [if_pos rfl]
    cases hrxr : (u.port p).status.getLsbD 0 with
    | true => rw [rxrBit, hrxr, if_pos rfl, Bool.true_and, Bool.not_true, Bool.false_or, ite_self]
    | false =>
      rw [rxrBit, hrxr, if_neg Bool.false_ne_true, Uart.setRx_istat, Uart.setPort_istat,
        isWithBit_setBit u.istat (rxBit p) true j hj]
      rfl

/-- The UART after a byte is delivered to both ports. -/
def deliverBoth (c : Byte) (u : Uart) : Uart := (u.deliverTo c .a).deliverTo c .b

theorem rxDeliver_eq (c : Byte) (s : State) : rxDeliver c s = (s.withUart (deliverBoth c s.uart)).recompute := rfl

theorem deliverBoth_keepsShared (c : Byte) (u : Uart) : keepsShared u (deliverBoth c u) :=
  keepsShared_trans (u.deliverTo_frame c .a) (Uart.deliverTo_frame _ c .b)

theorem deliverBoth_a (c : Byte) (u : Uart) : (deliverBoth c u).port .a = (u.deliverTo c .a).port .a :=
  Uart.deliverTo_other _ c .b .a (by decide)

/-- Delivering to port A first leaves port B as it was. -/
theorem deliverTo_a_port_b (c : Byte) (u : Uart) : (u.deliverTo c .a).port .b = u.port .b :=
  u.deliverTo_other c .a .b (by decide)

theorem deliverBoth_port (c : Byte) (u : Uart) (p : Port) :
    (deliverBoth c u).port p =
      { u.port p with
        status := ((deliverBoth c u).port p).status
        rxbuf := if (u.port p).rxEn && !(u.port p).status.getLsbD 0 then c else (u.port p).rxbuf } := by
  cases p with
  | a => rw [deliverBoth_a]; exact u.deliverTo_same c .a
  | b =>
    have h := Uart.deliverTo_same (u.deliverTo c .a) c .b
    rw [deliverTo_a_port_b] at h
    exact h

theorem deliverBoth_status (c : Byte) (u : Uart) (p : Port) :
    isWithBit (u.port p).status ((deliverBoth c u).port p).status 0 (u.port p).rxEn := by
  cases p with
  | a => rw [deliverBoth_a]; exact deliverTo_status u c .a
  | b =>
    have h := deliverTo_status (u.deliverTo c .a) c .b
    rw [deliverTo_a_port_b] at h
    exact h

theorem deliverBoth_istat (c : Byte) (u : Uart) (j : Nat) (hj : j < 8) :
    (deliverBoth c u).istat.getLsbD j =
      if j = 1 then u.a.rxEn && (!u.a.status.getLsbD 0 || u.istat.getLsbD 1)
      else if j = 5 then u.b.rxEn && (!u.b.status.getLsbD 0 || u.istat.getLsbD 5)
      else u.istat.getLsbD j := by
  rw [deliverBoth, deliverTo_istat _ c .b j hj, deliverTo_istat u c .a j hj, deliverTo_a_port_b]
  by_cases h1 : j = 1
  · subst h1; rfl
  · by_cases h5 : j = 5
    · subst h5; rfl
    · have ha : j ≠ rxBit .a := h1
      have hb : j ≠ rxBit .b := h5
      rw [if_neg hb, if_neg ha, if_neg h1, if_neg h5]

/-! ## The poll's part of the tick (R211) -/

/-- The state with its character taken from the inputs (R211). -/
def withoutCharacter (s : State) : State := { s with inputs := { s.inputs with kbd := none } }

theorem serviceUart_withoutCharacter (s : State) :
    serviceUart (withoutCharacter s) = withoutCharacter (counterTick s) := by
  rw [serviceUart_of_no_character rfl, withoutCharacter, withoutCharacter, counterTick_withInputs, counterTick_inputs]

/-- With a character offered the tick is the one with none, and then the delivery where port A's receiver is
enabled. -/
theorem serviceUart_of_character {s : State} {c : Byte} (h : s.inputs.kbd = some c) :
    serviceUart s =
      if s.uart.a.rxEn then rxDeliver c (serviceUart (withoutCharacter s))
      else serviceUart (withoutCharacter s) := by
  have hkbd : (counterTick s).inputs.kbd = some c := by rw [counterTick_inputs, h]
  have ha : (counterTick s).uart.a = s.uart.a := counterTick_port s .a
  rw [serviceUart_withoutCharacter, ← ha, serviceUart, poll, hkbd]
  rfl

/-- Settles O33: the delivery comes after the tick with no character, and goes to both ports. -/
theorem receivePathRule : Obligations.ReceivePathRule := by
  intro s t0 rest c hpending hkbd hnone
  have ht0 : serviceUart (withoutCharacter (s.start rest)) = t0 :=
    Host.Outcome.next.inj ((step_serviceUart (s := withoutCharacter s) hpending).symm.trans hnone)
  have hstep : step s = .next (if s.uart.a.rxEn then rxDeliver c t0 else t0) := by
    rw [step_serviceUart hpending, serviceUart_of_character (s := s.start rest) hkbd, ht0]
    rfl
  refine ⟨fun hoff => ?lost, fun hon => ⟨_, hstep, ?delivered⟩⟩
  case lost => rw [hstep, hoff]; rfl
  case delivered =>
    rw [if_pos hon, rxDeliver_eq, State.recompute_uart, State.withUart_uart]
    exact ⟨State.recompute_frame _, deliverBoth_keepsShared c t0.uart, deliverBoth_port c t0.uart,
      deliverBoth_status c t0.uart, deliverBoth_istat c t0.uart, interruptFollows_withUart t0 _⟩

end Sys2Proof.Proofs
end

section
/-! PROOFS. The floppy controller's registers (R233 to R241), FORCE_INTERRUPT (R259) and the tick (R243, R244). The
status byte is told bit by bit in its two layouts, a command byte by its high nibble. -/

namespace Sys2Proof.Proofs

open Sys2Proof.Machine Sys2Proof.Claims Sys2Proof.Laws

/-! ## The status byte (R233) -/

theorem layoutI_iff (c : CmdType) : c.layoutI = true ↔ c = .typeI ∨ c = .typeIV := by
  cases c <;> decide

/-- The Type I layout: bits 7, 6, 2 and 1 are live, the others stored (R32). -/
theorem fdcStatusI_getLsbD (f : Fdc) (ready wp index : Bool) {j : Nat} (hj : j < 8) :
    (fdcStatusI f ready wp index).getLsbD j =
      if j = 7 then !ready else if j = 6 then wp
      else if j = 2 then decide (f.physTrack = 0) else if j = 1 then index else f.status.getLsbD j := by
  simp only [fdcStatusI, setBit_getLsbD]
  interval_cases j <;> rfl

/-- The Type II/III layout: bits 7 and 1 are live, the others stored (R33). -/
theorem fdcStatusII_getLsbD (f : Fdc) (ready : Bool) {j : Nat} (hj : j < 8) :
    (fdcStatusII f ready).getLsbD j =
      if j = 7 then !ready else if j = 1 then f.drq else f.status.getLsbD j := by
  simp only [fdcStatusII, setBit_getLsbD]
  interval_cases j <;> rfl

theorem statusValue_of_layoutI {s : State} (h : s.fdc.cmdType = .typeI ∨ s.fdc.cmdType = .typeIV) :
    statusValue s = fdcStatusI s.fdc s.inputs.fdcReady s.inputs.fdcWp (s.drawn.getLsbD 0) := by
  rw [statusValue, if_pos ((layoutI_iff _).2 h)]

theorem statusValue_of_layoutII {s : State} (h : ¬(s.fdc.cmdType = .typeI ∨ s.fdc.cmdType = .typeIV)) :
    statusValue s = fdcStatusII s.fdc s.inputs.fdcReady := by
  rw [statusValue, if_neg (mt (layoutI_iff _).1 h)]

theorem afterStatusValue_of_layoutI {s : State} (h : s.fdc.cmdType = .typeI ∨ s.fdc.cmdType = .typeIV) :
    afterStatusValue s = s.afterDraw := by
  rw [afterStatusValue, if_pos ((layoutI_iff _).2 h)]

theorem afterStatusValue_of_layoutII {s : State} (h : ¬(s.fdc.cmdType = .typeI ∨ s.fdc.cmdType = .typeIV)) :
    afterStatusValue s = s := by
  rw [afterStatusValue, if_neg (mt (layoutI_iff _).1 h)]

/-- The state a status read leaves: the draw used up, CSR cause 2 cleared, the status answered (R234). -/
def statusReadState (sz : AccSize) (s : State) : State :=
  ((afterStatusValue s).csrClear Config.csrFdcCause).answerRead sz (statusValue s)

theorem exec_fdcRdStatus (s : State) (sz : AccSize) :
    exec (.fdcRdStatus sz) s = .next (statusReadState sz s) := rfl

theorem statusReadState_answers (sz : AccSize) (s : State) :
    answers (statusReadState sz s) sz (statusValue s).toNat :=
  answers_answerRead _ sz (statusValue s) (by decide)

theorem statusReadState_inputs (sz : AccSize) (s : State) :
    (statusReadState sz s).inputs = (afterStatusValue s).inputs := rfl

theorem statusReadState_frame (sz : AccSize) (s : State) :
    statusReadState sz s = { s with
      csr := ⟨setBit s.csr.bits 2 false⟩
      inputs := (statusReadState sz s).inputs
      returned := (statusReadState sz s).returned } :=
  congrArg (fun x : State => (x.csrClear Config.csrFdcCause).answerRead sz (statusValue s)) (afterStatusValue_frame s)

/-- Settles O35: the two layouts give the byte bit by bit; only the Type I layout draws. -/
theorem fdcStatusReadRule : Obligations.FdcStatusReadRule := by
  intro s sz
  have hframe := statusReadState_frame sz s
  have hcsr : (statusReadState sz s).csr = ⟨setBit s.csr.bits 2 false⟩ := by rw [hframe]
  refine ⟨readDecodes_of_roundTrip (RoundTrip.fdcRdStatus sz) rfl rfl rfl, statusReadState sz s, s.drawn.getLsbD 0,
    statusValue s, exec_fdcRdStatus s sz, ?frame, ?cause, statusReadState_answers sz s, ?layout⟩
  case frame => rw [hcsr]; exact hframe
  case cause => rw [hcsr]; exact isWithBit_setBit s.csr.bits 2 false
  case layout =>
    rw [statusReadState_inputs]
    split
    case isTrue h =>
      rw [afterStatusValue_of_layoutI h, statusValue_of_layoutI h]
      exact ⟨rfl, fun j hj => fdcStatusI_getLsbD s.fdc _ _ _ hj⟩
    case isFalse h =>
      rw [afterStatusValue_of_layoutII h, statusValue_of_layoutII h]
      exact ⟨rfl, fun j hj => fdcStatusII_getLsbD s.fdc _ hj⟩

/-! ## The track, sector and data registers (R236 to R241) -/

theorem exec_fdcRdTrack (s : State) (sz : AccSize) :
    exec (.fdcRdTrack sz) s = .next (s.answerRead sz s.fdc.track) := rfl

theorem exec_fdcRdSector (s : State) (sz : AccSize) :
    exec (.fdcRdSector sz) s = .next (s.answerRead sz s.fdc.sector) := rfl

theorem exec_fdcRdData (s : State) (sz : AccSize) :
    exec (.fdcRdData sz) s = .next (s.answerRead sz s.fdc.data) := rfl

theorem exec_fdcWrTrack (s : State) (sz : AccSize) (v : Word) :
    exec (.fdcWrTrack sz v) s = .next (s.withFdc { s.fdc with track := v.setWidth 8 }) := by
  rw [← writtenByte_eq sz v]; rfl

theorem exec_fdcWrSector (s : State) (sz : AccSize) (v : Word) :
    exec (.fdcWrSector sz v) s = .next (s.withFdc { s.fdc with sector := v.setWidth 8 }) := by
  rw [← writtenByte_eq sz v]; rfl

theorem exec_fdcWrData (s : State) (sz : AccSize) (v : Word) :
    exec (.fdcWrData sz v) s = .next (s.withFdc { s.fdc with data := v.setWidth 8 }) := by
  rw [← writtenByte_eq sz v]; rfl

/-- Settles O36: three reads that only answer and three writes of one field, none of which asks for the phase. -/
theorem fdcRegistersReadAndWrite : Obligations.FdcRegistersReadAndWrite := by
  intro s sz v
  exact ⟨readDecodes_of_roundTrip (RoundTrip.fdcRdTrack sz) rfl rfl rfl,
    readDecodes_of_roundTrip (RoundTrip.fdcRdSector sz) rfl rfl rfl,
    readDecodes_of_roundTrip (RoundTrip.fdcRdData sz) rfl rfl rfl,
    writeDecodes_of_roundTrip (RoundTrip.fdcWrTrack sz v) rfl rfl rfl,
    writeDecodes_of_roundTrip (RoundTrip.fdcWrSector sz v) rfl rfl rfl,
    writeDecodes_of_roundTrip (RoundTrip.fdcWrData sz v) rfl rfl rfl,
    read_of_exec (exec_fdcRdTrack s sz) (by decide) rfl,
    read_of_exec (exec_fdcRdSector s sz) (by decide) rfl,
    read_of_exec (exec_fdcRdData s sz) (by decide) rfl,
    exec_fdcWrTrack s sz v, exec_fdcWrSector s sz v, exec_fdcWrData s sz v⟩

/-! ## FORCE_INTERRUPT (R259) -/

theorem exec_fdcForceInterrupt (s : State) (cond : BitVec 4) :
    exec (.fdcForceInterrupt cond) s = .next (forceInterrupt (forceByte cond) s) := rfl

theorem forceByte_eq_ofNat (cond : BitVec 4) : forceByte cond = BitVec.ofNat 8 (0xD0 + cond.toNat) := by
  revert cond; decide

/-- Bit 3 of the command byte is the condition I3 (R97). -/
theorem forceByte_getLsbD_three (cond : BitVec 4) : (forceByte cond).getLsbD 3 = cond.getLsbD 3 := by
  revert cond; decide

/-- Settles O38: `forceInterrupt_eq` on the byte of the row, in which no field of the controller is asked for. -/
theorem forceInterruptRule : Obligations.ForceInterruptRule := by
  intro s cond
  refine ⟨_, exec_fdcForceInterrupt s cond, ?_⟩
  rw [forceInterrupt_eq, forceByte_getLsbD_three, forceByte_eq_ofNat]
  exact ⟨rfl, isWithBit_setBit s.csr.bits 2 _, rfl⟩

/-! ## A command byte written (R235) -/

theorem exec_fdcWrCmd (s : State) (sz : AccSize) (v : Word) :
    exec (.fdcWrCmd sz v) s = .next (fdcCommandWrite (v.setWidth 8) s) := by
  rw [← writtenByte_eq sz v]; rfl

/-- The high nibble of the byte a write delivers. -/
theorem written_highNibble (v : Word) : (v.setWidth 8 : Byte).toNat / 16 = v.toNat / 16 % 16 := by
  rw [BitVec.toNat_setWidth]
  omega

theorem fdcClass_eq_typeIV_iff (b : Byte) : fdcClass b = .typeIV ↔ b.toNat / 16 = 0xD := by
  revert b; decide

/-- A class IV byte is the byte of the FORCE_INTERRUPT row with its low nibble. -/
theorem forceByte_lowNibble {b : Byte} (h : b.toNat / 16 = 0xD) : forceByte (BitVec.ofNat 4 (b.toNat % 16)) = b := by
  revert b; decide

/-- The class of a byte that is not FORCE_INTERRUPT, by ranges of its high nibble (R231). -/
theorem fdcClass_of_ne {b : Byte} (h : b.toNat / 16 ≠ 0xD) :
    fdcClass b = if b.toNat / 16 < 8 then .typeI else if b.toNat / 16 < 0xC then .typeII else .typeIII := by
  rw [fdcClass_eq, if_neg h]

/-- A byte has a side bit exactly in class II and III (R235). -/
theorem fdcClass_hasSide_iff {b : Byte} (h : b.toNat / 16 ≠ 0xD) :
    (fdcClass b = .typeII ∨ fdcClass b = .typeIII) ↔ ¬b.toNat / 16 < 8 := by
  revert b; decide

/-- The multi-sector commands are those of nibbles 9 and B (R232, R235). -/
theorem multiFlag_eq (b : Byte) :
    (decide (fdcClass b = .typeII) && b.getLsbD 4) = decide (b.toNat / 16 = 0x9 ∨ b.toNat / 16 = 0xB) := by
  revert b; decide

/-- What an accepted byte of class I, II or III leaves, by its high nibble (R235). -/
theorem accept_eq (f : Fdc) (n : Nat) {b : Byte} (h : b.toNat / 16 ≠ 0xD) :
    f.accept b n = { f with
      cmd := b
      cmdType := if b.toNat / 16 < 8 then .typeI else if b.toNat / 16 < 0xC then .typeII else .typeIII
      status := 0x01
      drq := false
      xfer := none
      side := if b.toNat / 16 < 8 then f.side else b.getLsbD 1
      multi := decide (b.toNat / 16 = 0x9 ∨ b.toNat / 16 = 0xB)
      phase := .exec n } := by
  rw [← fdcClass_of_ne h, ← multiFlag_eq, ← ite_not]
  simp only [Fdc.accept, fdcClass_hasSide_iff h]
  rfl

theorem fdcCommandWrite_of_force {b : Byte} (h : b.toNat / 16 = 0xD) (s : State) :
    fdcCommandWrite b s = forceInterrupt b s :=
  if_pos ((fdcClass_eq_typeIV_iff b).2 h)

theorem fdcCommandWrite_of_busy {b : Byte} (h : b.toNat / 16 ≠ 0xD) {s : State}
    (hbusy : s.fdc.status.getLsbD 0 = true) : fdcCommandWrite b s = s := by
  rw [fdcCommandWrite, if_neg (mt (fdcClass_eq_typeIV_iff b).1 h), Fdc.busy, if_pos hbusy]

theorem fdcCommandWrite_of_notBusy {b : Byte} (h : b.toNat / 16 ≠ 0xD) {s : State}
    (hbusy : s.fdc.status.getLsbD 0 = false) :
    fdcCommandWrite b s =
      (s.csrClear Config.csrFdcCause).withFdc (s.fdc.accept b s.params.fdcLatency) := by
  rw [fdcCommandWrite, if_neg (mt (fdcClass_eq_typeIV_iff b).1 h), Fdc.busy, if_neg (Bool.eq_false_iff.1 hbusy)]

/-- Settles O37: the three ways of `fdcCommandWrite`, each picked by the byte's high nibble and BUSY. -/
theorem fdcCommandAcceptedOrIgnored : Obligations.FdcCommandAcceptedOrIgnored := by
  intro s sz v
  have hlow : (v.setWidth 8 : Byte).toNat % 16 = v.toNat % 16 := by rw [BitVec.toNat_setWidth]; omega
  have hside : (v.setWidth 8 : Byte).getLsbD 1 = v.getLsbD 1 := by rw [BitVec.getLsbD_setWidth]; rfl
  rw [exec_fdcWrCmd, ← written_highNibble, ← hlow, ← hside]
  refine ⟨writeDecodes_of_roundTrip (RoundTrip.fdcWrCmd sz v) rfl rfl rfl, fun hforce => ?force,
    fun hclass hbusy => ?ignored, fun hclass hbusy => ?accepted⟩
  case force => rw [exec_fdcForceInterrupt, forceByte_lowNibble hforce, fdcCommandWrite_of_force hforce]
  case ignored => rw [fdcCommandWrite_of_busy hclass hbusy]
  case accepted =>
    refine ⟨_, congrArg _ (fdcCommandWrite_of_notBusy hclass hbusy), rfl, ?_⟩
    exact ⟨isWithBit_setBit s.csr.bits 2 false, accept_eq s.fdc _ hclass⟩

/-! ## The tick (R243, R244) -/

/-- An FDC tick at the head of the queue is `Service(fdc)` (R243). -/
theorem step_serviceFdc {s : State} {rest : List Op} (h : s.pending = .service .fdc :: rest) :
    step s = serviceFdc (s.start rest) := by
  rw [step, h]; rfl

theorem serviceFdc_of_due {s : State} {n : Nat} (hphase : s.fdc.phase = .exec n) (hn : n ≤ 1) :
    serviceFdc s = exec (decodeFdcCommand s.fdc.cmd) s := by
  rw [serviceFdc, hphase]
  exact if_neg (Nat.not_lt_of_le hn)

theorem serviceFdc_of_counting {s : State} {n : Nat} (hphase : s.fdc.phase = .exec n) (hn : 1 < n) :
    serviceFdc s = .next (s.withFdc { s.fdc with phase := .exec (n - 1) }) := by
  rw [serviceFdc, hphase]
  exact if_pos hn

theorem serviceFdc_of_resting {s : State} (h : s.fdc.phase = .idle ∨ s.fdc.phase = .waitDrq) :
    serviceFdc s = .next s := by
  rcases h with h | h <;> rw [serviceFdc, h]

/-- Settles O6, by the phase the tick finds. -/
theorem fdcTickRunsTheCommandInCmd : Obligations.FdcTickRunsTheCommandInCmd := by
  intro s rest hpending
  rw [step_serviceFdc hpending]
  refine ⟨fun n i hn hphase hdecode => ?due, fun n hn hphase => ?counting, fun hphase => ?resting⟩
  case due =>
    have hi : decodeFdcCommand s.fdc.cmd = i := Decoded.instr.inj hdecode
    rw [serviceFdc_of_due (s := s.start rest) hphase hn, State.start_fdc, hi]
    rfl
  case counting => exact serviceFdc_of_counting (s := s.start rest) hphase hn
  case resting => exact serviceFdc_of_resting (s := s.start rest) hphase

end Sys2Proof.Proofs
end

section
/-! PROOFS. The Type I commands (R245 to R250): what finishing leaves in the words of the statements, then the head and
the track register of each command. -/

namespace Sys2Proof.Proofs

open Sys2Proof.Machine Sys2Proof.Claims Sys2Proof.Laws

/-! ## Finishing (R242, R250) -/

/-- A command that finishes on the controller f it made (R242). -/
theorem finishedWith_finish (f : Fdc) (st : Byte) (s : State) : finishedWith f st s (finish st (s.withFdc f)) :=
  ⟨rfl, rfl, isWithBit_setBit s.csr.bits 2 true⟩

/-- The Type I end status: TK_0, SEEK_ERR and HEAD_LOADED, every other bit 0 (R250). -/
theorem typeIStatus_getLsbD (f : Fdc) (ready h ver : Bool) {j : Nat} (hj : j < 8) :
    (typeIStatus f ready h ver).getLsbD j =
      if j = 2 then decide (f.physTrack = 0)
      else if j = 4 then (ver && !(ready && decide (f.track.toNat = f.physTrack)))
      else if j = 5 then (h || ver)
      else false := by
  simp only [typeIStatus, setBit_getLsbD]
  interval_cases j <;> rfl

theorem typeIDone_typeIFinish (h ver : Bool) (f : Fdc) (s : State) :
    typeIDone h ver f s (typeIFinish h ver (s.withFdc f)) :=
  ⟨typeIStatus f s.inputs.fdcReady h ver, finishedWith_finish f _ s, fun _ hj => typeIStatus_getLsbD f _ h ver hj⟩

/-! ## RESTORE (R245) -/

theorem exec_fdcRestore (s : State) (h ver : Bool) (r : BitVec 2) :
    exec (.fdcRestore h ver r) s = .next (typeIFinish h ver (s.withFdc s.fdc.restore)) := rfl

/-- Settles O39: RESTORE's head movement asks for no input; `fdc_ready` enters the end status alone. -/
theorem restoreRule : Obligations.RestoreRule := by
  intro s h ver r
  exact ⟨_, exec_fdcRestore s h ver r, typeIDone_typeIFinish h ver s.fdc.restore s⟩

/-! ## SEEK (R246) -/

theorem exec_fdcSeek (s : State) (h ver : Bool) (r : BitVec 2) :
    exec (.fdcSeek h ver r) s = .next (typeIFinish h ver (s.withFdc s.fdc.seek)) := rfl

/-- The direction of a seek from track t to track d, as an order of the two. -/
theorem seekDir_sub (d t : Nat) (old : StepDir) :
    seekDir ((d : Int) - (t : Int)) old = if t < d then .inward else if d < t then .outward else old := by
  have hin : (d : Int) - (t : Int) > 0 ↔ t < d := by omega
  have hout : (d : Int) - (t : Int) < 0 ↔ d < t := by omega
  simp only [seekDir, hin, hout]

/-- SEEK's head movement in natural numbers, whose subtraction stops at track 0 as the clamp does. -/
theorem fdcSeek_eq (f : Fdc) :
    f.seek = { f with
      physTrack := min (f.physTrack + f.data.toNat - f.track.toNat) 79
      track := f.data
      stepDir :=
        if f.track.toNat < f.data.toNat then .inward
        else if f.data.toNat < f.track.toNat then .outward
        else f.stepDir } := by
  have htarget : (f.physTrack : Int) + ((f.data.toNat : Int) - (f.track.toNat : Int)) =
      ((f.physTrack + f.data.toNat : Nat) : Int) - (f.track.toNat : Int) := by omega
  simp only [Fdc.seek, seekDir_sub, htarget, clampTrack_sub]

/-- Settles O40: the head movement is `fdcSeek_eq`, whatever the head and the track register hold. -/
theorem seekRule : Obligations.SeekRule := by
  intro s h ver r
  refine ⟨_, exec_fdcSeek s h ver r, ?_⟩
  rw [← fdcSeek_eq]
  exact typeIDone_typeIFinish h ver s.fdc.seek s

/-! ## The step commands (R247 to R249) -/

theorem exec_stepRow (s : State) (d : Option StepDir) (u h ver : Bool) (r : BitVec 2) :
    exec (stepRow d u h ver r) s =
      .next (typeIFinish h ver (s.withFdc (Fdc.step { s.fdc with stepDir := d.getD s.fdc.stepDir } u))) := by
  match d with
  | none => rfl
  | some .inward => rfl
  | some .outward => rfl

theorem clampTrack_step (phys : Nat) (d : StepDir) :
    clampTrack ((phys : Int) + d.toInt) = headAfterStep phys d := by
  cases d with
  | inward =>
    have hin : (phys : Int) + StepDir.inward.toInt = ((phys + 1 : Nat) : Int) - (0 : Nat) := by
      simp only [StepDir.toInt]; omega
    rw [hin, clampTrack_sub]; rfl
  | outward => exact clampTrack_sub phys 1

/-- A step down from 0 wraps to 255, a step up from 255 to 0 (R249). -/
theorem stepTrack_eq (t : Byte) (d : StepDir) : stepTrack t d = trackAfterStep t d := by
  revert t
  cases d with
  | inward => decide
  | outward => decide

theorem fdcStep_eq (f : Fdc) (u : Bool) :
    f.step u = { f with
      physTrack := headAfterStep f.physTrack f.stepDir
      track := if u then trackAfterStep f.track f.stepDir else f.track } := by
  simp only [Fdc.step, clampTrack_step, stepTrack_eq]

/-- Settles O41: the three rows are one step in the direction each of them sets or keeps. -/
theorem stepCommandsRule : Obligations.StepCommandsRule := by
  intro s d u h ver r
  refine ⟨_, exec_stepRow s d u h ver r, ?_⟩
  rw [fdcStep_eq]
  exact typeIDone_typeIFinish h ver _ s

end Sys2Proof.Proofs
end

section
/-! PROOFS. The sector commands (R251 to R255) and the collaborator's two events (R260, R261). `SectorStart` is told
once for any controller it is run on; the sector commands and the acknowledgment use it. -/

namespace Sys2Proof.Proofs

open Sys2Proof.Machine Sys2Proof.Claims Sys2Proof.Laws

/-! ## Starting a sector (R251) -/

theorem sectorFound_iff (f : Fdc) :
    f.sectorFound = true ↔ f.track.toNat = f.physTrack ∧ 1 ≤ f.sector.toNat ∧ f.sector.toNat ≤ 9 := by
  have hlast : f.sector.toNat < Config.fdcSectorBase + Config.fdcSectors ↔ f.sector.toNat ≤ 9 := Nat.lt_succ_iff
  rw [Fdc.sectorFound, Bool.and_eq_true, decide_eq_true_eq, Fdc.onTrack, beq_iff_eq, hlast]
  rfl

theorem sectorOffset_eq (f : Fdc) : sectorOffset f = imageOffset f f.sector.toNat := by
  rw [sectorOffset, trackOffset, imageOffset]
  cases f.side <;> rfl

/-- A transfer published on the controller f (R251). -/
theorem waitsWith_publish (f : Fdc) (x : Xfer) (s : State) : waitsWith f x s (publish x (s.withFdc f)) := rfl

/-- `SectorStart(dir)` in the four ways it can go, on the controller the state holds. -/
theorem sectorStarted_sectorStart (dir : XferDir) (s : State) : sectorStarted dir s.fdc s (sectorStart dir s) := by
  unfold sectorStarted
  rcases sectorStart_cases dir s with
    ⟨hready, e⟩ | ⟨hready, hdir, hwp, e⟩ | ⟨hready, hwp, hfound, e⟩ | ⟨hready, hwp, hfound, e⟩ <;> rw [e]
  case inl =>
    rw [if_pos hready]
    exact finishedWith_finish s.fdc 0x00 s
  case inr.inl =>
    rw [if_neg (Bool.ne_false_iff.2 hready), if_pos ⟨hdir, hwp⟩]
    exact finishedWith_finish s.fdc 0x40 s
  case inr.inr.inl =>
    have hnot := mt (sectorFound_iff s.fdc).2 (Bool.eq_false_iff.1 hfound)
    rw [if_neg (Bool.ne_false_iff.2 hready), if_neg hwp, if_neg hnot]
    exact finishedWith_finish s.fdc 0x10 s
  case inr.inr.inr =>
    have hfound := (sectorFound_iff s.fdc).1 hfound
    rw [if_neg (Bool.ne_false_iff.2 hready), if_neg hwp, if_pos hfound, ← sectorOffset_eq]
    exact waitsWith_publish s.fdc _ s

/-- The same on a controller f put in place of the old one, which the statements' frames do not read. -/
theorem sectorStarted_withFdc (dir : XferDir) (f : Fdc) (s : State) :
    sectorStarted dir f s (sectorStart dir (s.withFdc f)) :=
  sectorStarted_sectorStart dir (s.withFdc f)

/-- The sectors of the 80 tracks and 2 sides lie inside the image (R72). -/
theorem imageOffset_le {f : Fdc} {sector : Nat} (htrack : f.physTrack < 80) (hsector : sector ≤ 9) :
    imageOffset f sector + 512 ≤ 737280 := by
  have hside : f.side.toNat ≤ 1 := Bool.toNat_le f.side
  unfold imageOffset
  omega

/-! ## The sector commands (R252 to R255) -/

theorem exec_sectorRow (s : State) (dir : XferDir) (multi l e sd x : Bool) :
    exec (sectorRow dir multi l e sd x) s = .next (sectorStart dir (s.withFdc (withMulti multi s.fdc))) := by
  cases dir <;> cases multi <;> rfl

/-- Settles O42: each row is `SectorStart` on the controller with multi set for the multi-sector rows. -/
theorem sectorCommandsRule : Obligations.SectorCommandsRule := by
  intro s dir multi l e sd x
  exact ⟨⟨_, exec_sectorRow s dir multi l e sd x, sectorStarted_withFdc dir (withMulti multi s.fdc) s⟩,
    fun htrack _ hlast => imageOffset_le htrack hlast⟩

/-! ## The acknowledgment (R260) -/

theorem step_fdcDrqAck {s : State} {rest : List Op} (h : s.pending = .fdcDrqAck :: rest) :
    step s = .next (fdcDrqAck (s.start rest)) := by
  rw [step, h]; rfl

/-- Settles O45: the three ways of `fdcDrqAck`; the next sector is a `SectorStart` like a command's. -/
theorem drqAckRule : Obligations.DrqAckRule := by
  intro s rest hpending
  rw [step_fdcDrqAck hpending]
  have hcases := fdcDrqAck_cases (s.start rest)
  rw [State.start_fdc] at hcases
  rcases hcases with ⟨hphase, e⟩ | ⟨hphase, htype, hmulti, e⟩ | ⟨hphase, hlast, e⟩ <;> rw [e]
  case inl => exact ⟨fun _ => rfl, fun hwait => absurd hwait hphase⟩
  case inr.inl =>
    have hnext : s.fdc.sector + 1 = BitVec.ofNat 8 (s.fdc.sector.toNat + 1) := by
      rw [BitVec.ofNat_add, BitVec.ofNat_toNat, BitVec.setWidth_eq]
      rfl
    refine ⟨fun hnot => absurd hphase hnot, fun _ => ⟨_, rfl, ?_⟩⟩
    rw [if_pos ⟨htype, hmulti⟩, ← hnext]
    exact sectorStarted_withFdc _ _ (s.start rest)
  case inr.inr =>
    refine ⟨fun hnot => absurd hphase hnot, fun _ => ⟨_, rfl, ?_⟩⟩
    rw [if_neg hlast]
    exact finishedWith_finish s.fdc 0x00 (s.start rest)

/-! ## The data-late event (R261) -/

theorem step_fdcDataLate {s : State} {rest : List Op} (h : s.pending = .fdcDataLate :: rest) :
    step s = .next (fdcDataLate (s.start rest)) := by
  rw [step, h]; rfl

/-- Under the controller's invariants only a Type II or III command waits for DRQ (R261). -/
theorem inv_cmdType_of_waitDrq {f : Fdc} {lat : Nat} (hinv : f.inv lat) (hwait : f.phase = .waitDrq) :
    f.cmdType = .typeII ∨ f.cmdType = .typeIII := by
  obtain ⟨-, -, -, -, -, -, -, htype⟩ := hinv
  exact htype hwait

/-- In the Type II/III layout bit 2 is the stored LOST_DATA, not TK_0 (R33, R233). -/
theorem statusValue_lostData {s : State} (h : s.fdc.cmdType = .typeII ∨ s.fdc.cmdType = .typeIII) :
    (statusValue s).getLsbD 2 = s.fdc.status.getLsbD 2 := by
  have hlayout : ¬(s.fdc.cmdType = .typeI ∨ s.fdc.cmdType = .typeIV) := by
    rcases h with h | h <;> rw [h] <;> decide
  rw [statusValue_of_layoutII hlayout, fdcStatusII_getLsbD s.fdc _ (by decide : 2 < 8)]
  rfl

/-- Settles O46: the finish keeps `cmd_type`, so a status read shows the stored bit 2 as LOST_DATA. -/
theorem dataLateRule : Obligations.DataLateRule := by
  intro s rest hpending
  rw [step_fdcDataLate hpending]
  rcases fdcDataLate_cases (s.start rest) with ⟨hphase, e⟩ | ⟨hphase, e⟩ <;> rw [e]
  case inl => exact ⟨fun _ => rfl, fun hwait => absurd hwait hphase⟩
  case inr =>
    refine ⟨fun hnot => absurd hphase hnot, fun hwait =>
      ⟨_, rfl, finishedWith_finish s.fdc 0x04 (s.start rest), fun hinv => ?_⟩⟩
    have htype := inv_cmdType_of_waitDrq hinv hwait
    refine ⟨htype, fun sz => ⟨_, _, exec_fdcRdStatus _ sz, statusReadState_answers sz _, ?_⟩⟩
    have hbit : (0x04 : Byte).getLsbD 2 = true := by decide
    rw [statusValue_lostData (s := finish 0x04 (s.start rest)) htype]
    exact hbit

end Sys2Proof.Proofs
end

section
/-! PROOFS. The NVRAM (R290 to R298): its two accesses, and the host's load and save. -/

namespace Sys2Proof.Proofs

open Sys2Proof.Machine Sys2Proof.Claims Sys2Proof.Laws

/-! ## The operations by their meanings -/

theorem bytesOf_eq (sz : AccSize) : bytesOf sz = byteCount sz := by cases sz <;> rfl

theorem exec_nvRd (s : State) (off : Nat) (sz : AccSize) : exec (.nvRd off sz) s = execNvRd off sz s := rfl

theorem exec_nvWr (s : State) (off : Nat) (sz : AccSize) (v : Word) :
    exec (.nvWr off sz v) s = execNvWr off sz v s := rfl

theorem step_nvSave {s : State} {rest : List Op} (h : s.pending = .nvSave :: rest) :
    step s = nvSave (s.start rest) := by
  rw [step, h]; rfl

theorem step_nvLoad {s : State} {image : List Byte} {rest : List Op} (h : s.pending = .nvLoad image :: rest) :
    step s = nvLoad image (s.start rest) := by
  rw [step, h]; rfl

/-! ## The faults -/

theorem nvCheck_of_unallocated {s : State} (h : s.nv.allocated = false) (o n : Nat) :
    nvCheck s o n = some .nvUnallocated := if_pos h

theorem nvCheck_of_outOfRange {s : State} {o n : Nat} (halloc : s.nv.allocated = true)
    (hrange : s.params.nvramSize < o + n) : nvCheck s o n = some .nvRange := by
  have hnot : ¬ s.nv.allocated = false := by rw [halloc]; decide
  rw [nvCheck, if_neg hnot, if_pos hrange]

/-- A read whose check fails stops with the check's fault (R292, R293). -/
theorem exec_nvRd_of_check {s : State} {off : Nat} {sz : AccSize} {f : Fault}
    (h : nvCheck s off (bytesOf sz) = some f) : exec (.nvRd off sz) s = .fault f := by
  rw [bytesOf_eq] at h
  rw [exec_nvRd, execNvRd, h]

/-- A write whose check fails stops with the check's fault (R292, R293). -/
theorem exec_nvWr_of_check {s : State} {off : Nat} {sz : AccSize} {v : Word} {f : Fault}
    (h : nvCheck s off (bytesOf sz) = some f) : exec (.nvWr off sz v) s = .fault f := by
  rw [bytesOf_eq] at h
  rw [exec_nvWr, execNvWr, h]

theorem nvSave_of_unallocated {s : State} (h : s.nv.allocated = false) : nvSave s = .fault .nvUnallocated := if_pos h

theorem nvLoad_of_unallocated {s : State} (h : s.nv.allocated = false) (image : List Byte) :
    nvLoad image s = .fault .nvUnallocated := if_pos h

/-- Settles O51: the check's fault is the access's, and a load or save meets the store as the step found it. -/
theorem nvAccessFaults : Obligations.NvAccessFaults := by
  intro s off sz v
  refine ⟨fun hfree => ?unallocated, fun halloc hrange => ?outOfRange⟩
  case unallocated =>
    have hcheck := nvCheck_of_unallocated hfree off (bytesOf sz)
    refine ⟨exec_nvRd_of_check hcheck, exec_nvWr_of_check hcheck, fun rest => ?_⟩
    have hstart : (s.start rest).nv.allocated = false := hfree
    exact ⟨fun hsave => (step_nvSave hsave).trans (nvSave_of_unallocated hstart),
      fun image hload => (step_nvLoad hload).trans (nvLoad_of_unallocated hstart image)⟩
  case outOfRange =>
    have hcheck := nvCheck_of_outOfRange halloc hrange
    exact ⟨exec_nvRd_of_check hcheck, exec_nvWr_of_check hcheck⟩

end Sys2Proof.Proofs
end

section
/-! PROOFS. The order of the service ticks (R318). A transformation of the state is apart from a device where it leaves
alone what that device's tick reads and writes; the UART's and the FDC's tick commute with every such transformation,
and each other tick is one. The CSR is shared bit by bit: cause 3 is the UART's, cause 2 the FDC's. -/

namespace Sys2Proof.Proofs

open Sys2Proof.Machine Sys2Proof.Claims Sys2Proof.Laws

/-! ## Cause lines (R123) -/

/-- The CSR with cause k set to b, `CsrSet(k)` and `CsrClear(k)` in one. -/
def withCause (s : State) (k : Nat) (b : Bool) : State := { s with csr := ⟨setBit s.csr.bits k b⟩ }

theorem csrSet_eq_withCause (s : State) (k : Nat) : s.csrSet k = withCause s k true := rfl

theorem csrClear_eq_withCause (s : State) (k : Nat) : s.csrClear k = withCause s k false := rfl

theorem setBit_comm {n : Nat} (v : BitVec n) {i j : Nat} (a b : Bool) (h : i ≠ j) :
    setBit (setBit v i a) j b = setBit (setBit v j b) i a := by
  apply BitVec.eq_of_getLsbD_eq
  intro k hk
  by_cases hi : i = k
  · subst hi; rw [setBit_other _ _ _ _ h.symm, setBit_same _ _ _ hk, setBit_same _ _ _ hk]
  · by_cases hj : j = k
    · subst hj; rw [setBit_same _ _ _ hk, setBit_other _ _ _ _ h, setBit_same _ _ _ hk]
    · rw [setBit_other _ _ _ _ hj, setBit_other _ _ _ _ hi, setBit_other _ _ _ _ hi, setBit_other _ _ _ _ hj]

theorem withCause_comm (s : State) {i j : Nat} (a b : Bool) (h : i ≠ j) :
    withCause (withCause s i a) j b = withCause (withCause s j b) i a :=
  congrArg (fun v => { s with csr := ⟨v⟩ }) (setBit_comm s.csr.bits a b h)

/-! ## The UART's tick (R212) -/

/-- U leaves alone what a UART tick reads and commutes with each of its writes: the UART, cause 3, the history, the
offered character. Each holds by unfolding where U writes only other fields. -/
structure ApartFromUart (U : State → State) : Prop where
  uart : ∀ s, (U s).uart = s.uart := by intros; rfl
  params : ∀ s, (U s).params = s.params := by intros; rfl
  kbd : ∀ s, (U s).inputs.kbd = s.inputs.kbd := by intros; rfl
  withUart : ∀ s u, U (s.withUart u) = (U s).withUart u := by intros; rfl
  withCause : ∀ s b, U (withCause s Config.csrUartCause b) = Proofs.withCause (U s) Config.csrUartCause b := by
    intros; rfl
  emit : ∀ s e, U (s.emit e) = (U s).emit e := by intros; rfl
  withoutCharacter : ∀ s, U (withoutCharacter s) = Proofs.withoutCharacter (U s) := by intros; rfl

theorem ApartFromUart.recompute {U : State → State} (h : ApartFromUart U) (s : State) :
    U s.recompute = (U s).recompute := by
  simp only [State.recompute, csrSet_eq_withCause, csrClear_eq_withCause, apply_ite U, h.emit, h.withCause, h.uart,
    h.params]

theorem ApartFromUart.counterTick {U : State → State} (h : ApartFromUart U) (s : State) :
    U (counterTick s) = Machine.counterTick (U s) := by
  simp only [Machine.counterTick, apply_ite U, h.recompute, h.withUart, h.uart, h.params]

theorem ApartFromUart.rxDeliver {U : State → State} (h : ApartFromUart U) (c : Byte) (s : State) :
    U (rxDeliver c s) = Machine.rxDeliver c (U s) := by
  rw [rxDeliver_eq, rxDeliver_eq, h.recompute, h.withUart, h.uart]

/-- With a character offered or none, the tick is made of the counter's part, the answer's use and the delivery. -/
theorem ApartFromUart.serviceUart {U : State → State} (h : ApartFromUart U) (s : State) :
    U (serviceUart s) = Machine.serviceUart (U s) := by
  cases hkbd : s.inputs.kbd with
  | none =>
    have hkbdU : (U s).inputs.kbd = none := by rw [h.kbd, hkbd]
    rw [serviceUart_of_no_character hkbd, serviceUart_of_no_character hkbdU, h.counterTick]
  | some c =>
    have hkbdU : (U s).inputs.kbd = some c := by rw [h.kbd, hkbd]
    rw [serviceUart_of_character hkbd, serviceUart_of_character hkbdU]
    simp only [apply_ite U, serviceUart_withoutCharacter, h.rxDeliver, h.withoutCharacter, h.counterTick, h.uart]

theorem apartFromUart_start (rest : List Op) : ApartFromUart (·.start rest) := {}

theorem apartFromUart_serviceTmr : ApartFromUart serviceTmr := {}

theorem apartFromUart_withFdc (f : Fdc) : ApartFromUart (·.withFdc f) := {}

theorem apartFromUart_afterDraw : ApartFromUart State.afterDraw := {}

/-- The two devices share the CSR on different causes (R6). -/
theorem apartFromUart_fdcCause (b : Bool) : ApartFromUart (withCause · Config.csrFdcCause b) where
  withCause s c := withCause_comm s c b (by decide)

/-! ## The FDC's tick (R243, R244) -/

/-- U leaves alone what an FDC tick reads and commutes with each of its writes: the controller, cause 2, the draws. Of
the inputs it may take the offered character, which no command reads. Each holds by unfolding where U writes only
other fields. -/
structure ApartFromFdc (U : State → State) : Prop where
  fdc : ∀ s, (U s).fdc = s.fdc := by intros; rfl
  inputs : ∀ s, (U s).inputs = { s.inputs with kbd := (U s).inputs.kbd } := by intros; rfl
  withFdc : ∀ s f, U (s.withFdc f) = (U s).withFdc f := by intros; rfl
  withCause : ∀ s b, U (withCause s Config.csrFdcCause b) = Proofs.withCause (U s) Config.csrFdcCause b := by
    intros; rfl
  afterDraw : ∀ s, U s.afterDraw = (U s).afterDraw := by intros; rfl

section
variable {U : State → State}

theorem ApartFromFdc.fdcReady (h : ApartFromFdc U) (s : State) : (U s).inputs.fdcReady = s.inputs.fdcReady := by
  rw [h.inputs]

theorem ApartFromFdc.fdcWp (h : ApartFromFdc U) (s : State) : (U s).inputs.fdcWp = s.inputs.fdcWp := by
  rw [h.inputs]

theorem ApartFromFdc.drawn (h : ApartFromFdc U) (s : State) : (U s).drawn = s.drawn := by
  rw [State.drawn, h.inputs]; rfl

theorem ApartFromFdc.finish (h : ApartFromFdc U) (st : Byte) (s : State) :
    U (finish st s) = Machine.finish st (U s) := by
  simp only [Machine.finish, csrSet_eq_withCause, h.withCause, h.withFdc, h.fdc]

theorem ApartFromFdc.typeIFinish (h : ApartFromFdc U) (hd ver : Bool) (s : State) :
    U (typeIFinish hd ver s) = Machine.typeIFinish hd ver (U s) := by
  simp only [Machine.typeIFinish, h.finish, h.fdc, h.fdcReady]

theorem ApartFromFdc.publish (h : ApartFromFdc U) (x : Xfer) (s : State) :
    U (publish x s) = Machine.publish x (U s) := by
  simp only [Machine.publish, h.withFdc, h.fdc]

theorem ApartFromFdc.sectorStart (h : ApartFromFdc U) (dir : XferDir) (s : State) :
    U (sectorStart dir s) = Machine.sectorStart dir (U s) := by
  simp only [Machine.sectorStart, apply_ite U, h.finish, h.publish, h.fdc, h.fdcReady, h.fdcWp]

theorem ApartFromFdc.trackStart (h : ApartFromFdc U) (dir : XferDir) (s : State) :
    U (trackStart dir s) = Machine.trackStart dir (U s) := by
  simp only [Machine.trackStart, apply_ite U, h.finish, h.publish, h.fdc, h.fdcReady, h.fdcWp]

theorem ApartFromFdc.readAddress (h : ApartFromFdc U) (s : State) :
    U (readAddress s) = Machine.readAddress (U s) := by
  simp only [Machine.readAddress, h.publish, h.withFdc, ← h.afterDraw, h.drawn, h.fdc]

theorem ApartFromFdc.forceInterrupt (h : ApartFromFdc U) (b : Byte) (s : State) :
    U (forceInterrupt b s) = Machine.forceInterrupt b (U s) := by
  simp only [Machine.forceInterrupt, csrSet_eq_withCause, csrClear_eq_withCause, apply_ite U, h.withCause, h.withFdc,
    h.fdc]

end

/-- From every state `m` goes on, and U before it gives what U after it does. -/
def GoesOnAcross (m : State → Result) (U : State → State) : Prop :=
  ∀ s, ∃ t, m s = .next t ∧ m (U s) = .next (U t)

theorem goesOnAcross_of_eq {m : State → Result} {g U : State → State} (hm : ∀ s, m s = .next (g s))
    (hg : ∀ s, U (g s) = g (U s)) : GoesOnAcross m U :=
  fun s => ⟨g s, hm s, by rw [hm, hg]⟩

section
variable {U : State → State}

/-- A Type I command moves the head by a function of the controller and finishes. -/
theorem typeI_goesOnAcross (h : ApartFromFdc U) (i : Instr) (move : Fdc → Fdc) (hd ver : Bool)
    (hi : ∀ s, exec i s = .next (typeIFinish hd ver (s.withFdc (move s.fdc)))) : GoesOnAcross (exec i) U :=
  goesOnAcross_of_eq hi fun s => by rw [h.typeIFinish, h.withFdc, h.fdc]

theorem stepRow_goesOnAcross (h : ApartFromFdc U) (d : Option StepDir) (u hd ver : Bool) (r : BitVec 2) :
    GoesOnAcross (exec (stepRow d u hd ver r)) U :=
  typeI_goesOnAcross h _ (fun f => Fdc.step { f with stepDir := d.getD f.stepDir } u) hd ver
    fun s => exec_stepRow s d u hd ver r

theorem sectorRow_goesOnAcross (h : ApartFromFdc U) (dir : XferDir) (multi l e sd x : Bool) :
    GoesOnAcross (exec (sectorRow dir multi l e sd x)) U :=
  goesOnAcross_of_eq (fun s => exec_sectorRow s dir multi l e sd x)
    fun s => by rw [h.sectorStart, h.withFdc, h.fdc]

theorem trackRow_goesOnAcross (h : ApartFromFdc U) (dir : XferDir) (y e sd x : Bool) :
    GoesOnAcross (exec (trackRow dir y e sd x)) U :=
  goesOnAcross_of_eq (g := trackStart dir) (fun _ => by cases dir <;> rfl) (h.trackStart dir)

theorem readAddress_goesOnAcross (h : ApartFromFdc U) (y e sd x : Bool) :
    GoesOnAcross (exec (.fdcReadAddress y e sd x)) U :=
  goesOnAcross_of_eq (g := fun s => if s.inputs.fdcReady then readAddress s else finish 0x00 s) (fun _ => rfl)
    fun s => by simp only [apply_ite U, h.readAddress, h.finish, h.fdcReady]

theorem forceInterrupt_goesOnAcross (h : ApartFromFdc U) (cond : BitVec 4) :
    GoesOnAcross (exec (.fdcForceInterrupt cond)) U :=
  goesOnAcross_of_eq (fun s => exec_fdcForceInterrupt s cond) (h.forceInterrupt _)

/-- Whatever byte is in `cmd`, by the rows of R232. -/
theorem decodeFdcCommand_goesOnAcross (h : ApartFromFdc U) (b : Byte) :
    GoesOnAcross (exec (decodeFdcCommand b)) U := by
  unfold decodeFdcCommand
  dsimp only
  split
  · exact typeI_goesOnAcross h _ Fdc.restore _ _ fun s => exec_fdcRestore s _ _ _
  · exact typeI_goesOnAcross h _ Fdc.seek _ _ fun s => exec_fdcSeek s _ _ _
  · exact stepRow_goesOnAcross h none _ _ _ _
  · exact stepRow_goesOnAcross h none _ _ _ _
  · exact stepRow_goesOnAcross h (some .inward) _ _ _ _
  · exact stepRow_goesOnAcross h (some .inward) _ _ _ _
  · exact stepRow_goesOnAcross h (some .outward) _ _ _ _
  · exact stepRow_goesOnAcross h (some .outward) _ _ _ _
  · exact sectorRow_goesOnAcross h .toHost false _ _ _ _
  · exact sectorRow_goesOnAcross h .toHost true _ _ _ _
  · exact sectorRow_goesOnAcross h .toDisk false _ _ _ _
  · exact sectorRow_goesOnAcross h .toDisk true _ _ _ _
  · exact readAddress_goesOnAcross h _ _ _ _
  · exact forceInterrupt_goesOnAcross h _
  · exact trackRow_goesOnAcross h .toHost _ _ _ _
  · exact trackRow_goesOnAcross h .toDisk _ _ _ _

theorem serviceFdc_goesOnAcross (h : ApartFromFdc U) : GoesOnAcross serviceFdc U := by
  intro s
  have hresting (hphase : s.fdc.phase = .idle ∨ s.fdc.phase = .waitDrq) :
      ∃ t, serviceFdc s = .next t ∧ serviceFdc (U s) = .next (U t) :=
    ⟨s, serviceFdc_of_resting hphase, serviceFdc_of_resting (s := U s) (by rwa [h.fdc])⟩
  cases hphase : s.fdc.phase with
  | idle => exact hresting (.inl hphase)
  | waitDrq => exact hresting (.inr hphase)
  | exec n =>
    have hphaseU : (U s).fdc.phase = .exec n := by rw [h.fdc, hphase]
    rcases Nat.lt_or_ge 1 n with hn | hn
    · refine ⟨_, serviceFdc_of_counting hphase hn, ?_⟩
      rw [serviceFdc_of_counting hphaseU hn, h.withFdc, h.fdc]
    · rw [serviceFdc_of_due hphase hn, serviceFdc_of_due hphaseU hn, h.fdc]
      exact decodeFdcCommand_goesOnAcross h s.fdc.cmd s

end

theorem apartFromFdc_start (rest : List Op) : ApartFromFdc (·.start rest) := {}

theorem apartFromFdc_serviceTmr : ApartFromFdc serviceTmr := {}

theorem poll_inputs (s : State) : (poll s).inputs = { s.inputs with kbd := (poll s).inputs.kbd } := by
  rcases poll_cases s with ⟨-, e⟩ | ⟨_, -, -, e⟩ | ⟨_, -, -, e⟩ <;> rw [e]
  rw [rxDeliver_inputs]

/-- The UART's tick is apart from the FDC, because each of the FDC's writes is apart from the UART. -/
theorem apartFromFdc_serviceUart : ApartFromFdc serviceUart where
  fdc s := by obtain ⟨-, hfdc, -, -⟩ := serviceUart_frame s; exact hfdc
  inputs s := by rw [serviceUart, poll_inputs, counterTick_inputs]
  withFdc s f := ((apartFromUart_withFdc f).serviceUart s).symm
  withCause s b := ((apartFromUart_fdcCause b).serviceUart s).symm
  afterDraw s := (apartFromUart_afterDraw.serviceUart s).symm

/-! ## Any two ticks -/

/-- Issuing an operation commutes with every tick, and every tick goes on. -/
theorem runService_goesOnAcross_start (d : Device) (rest : List Op) : GoesOnAcross (runService d) (·.start rest) := by
  cases d with
  | csr => exact goesOnAcross_of_eq (g := id) (fun _ => rfl) fun _ => rfl
  | tmr => exact goesOnAcross_of_eq (g := serviceTmr) (fun _ => rfl) fun _ => rfl
  | uart => exact goesOnAcross_of_eq (g := serviceUart) (fun _ => rfl) (apartFromUart_start rest).serviceUart
  | fdc => exact serviceFdc_goesOnAcross (apartFromFdc_start rest)
  | nv => exact goesOnAcross_of_eq (g := id) (fun _ => rfl) fun _ => rfl

/-- The state `Service(dev)` leaves. -/
def tickState (d : Device) (s : State) : State :=
  match runService d s with
  | .next t => t
  | .fault _ => s
  | .refused _ => s

theorem tickState_of_next {d : Device} {s t : State} (h : runService d s = .next t) : tickState d s = t := by
  rw [tickState, h]

theorem runService_eq (d : Device) (s : State) : runService d s = .next (tickState d s) := by
  obtain ⟨t, ht, -⟩ := runService_goesOnAcross_start d [] s
  rw [tickState_of_next ht, ht]

theorem tickState_commute_of_goesOnAcross {d : Device} {U : State → State} (h : GoesOnAcross (runService d) U) :
    Function.Commute U (tickState d) := by
  intro s
  obtain ⟨t, ht, htU⟩ := h s
  rw [tickState_of_next ht, tickState_of_next htU]

/-- R318, as functions of the state. -/
theorem tickState_commute (d e : Device) : Function.Commute (tickState d) (tickState e) := by
  have tmr_uart : Function.Commute (tickState .tmr) (tickState .uart) := apartFromUart_serviceTmr.serviceUart
  have tmr_fdc : Function.Commute (tickState .tmr) (tickState .fdc) :=
    tickState_commute_of_goesOnAcross (serviceFdc_goesOnAcross apartFromFdc_serviceTmr)
  have uart_fdc : Function.Commute (tickState .uart) (tickState .fdc) :=
    tickState_commute_of_goesOnAcross (serviceFdc_goesOnAcross apartFromFdc_serviceUart)
  match d, e with
  | .csr, _ | .nv, _ => exact .id_left
  | _, .csr | _, .nv => exact .id_right
  | .tmr, .tmr | .uart, .uart | .fdc, .fdc => exact .refl _
  | .tmr, .uart => exact tmr_uart
  | .uart, .tmr => exact tmr_uart.symm
  | .tmr, .fdc => exact tmr_fdc
  | .fdc, .tmr => exact tmr_fdc.symm
  | .uart, .fdc => exact uart_fdc
  | .fdc, .uart => exact uart_fdc.symm

theorem tickState_start (d : Device) (s : State) (rest : List Op) :
    tickState d (s.start rest) = (tickState d s).start rest :=
  (tickState_commute_of_goesOnAcross (runService_goesOnAcross_start d rest) s).symm

/-- A tick at the head of the queue; neither the queue nor the last answer plays a part in it. -/
theorem step_service {s : State} {d : Device} {rest : List Op} (h : s.pending = .service d :: rest) :
    step s = .next ((tickState d s).start rest) := by
  rw [step, h, ← tickState_start]
  exact runService_eq d (s.start rest)

theorem run_two_services (s : State) (d e : Device) (rest : List Op) :
    Sys2Proof.core.run 2 { s with pending := .service d :: .service e :: rest } =
      .next ((tickState e (tickState d s)).start rest) := by
  have first : step { s with pending := .service d :: .service e :: rest } =
      .next ((tickState d s).start (.service e :: rest)) := by
    rw [step_service rfl, ← tickState_start, ← tickState_start]
    rfl
  rw [run_succ 1 _ _ first, run_one, step_service rfl, tickState_start]
  rfl

/-- Settles O55: two ticks are two commuting functions of the state (`tickState_commute`). -/
theorem tickOrderDoesNotMatter : Obligations.TickOrderDoesNotMatter := by
  intro s d e rest
  refine ⟨⟨_, run_two_services s d e rest, ?swapped⟩, fun hd hpending => ?unchanged⟩
  case swapped => rw [run_two_services, (tickState_commute d e).eq s]
  case unchanged =>
    rw [step_service hpending]
    rcases hd with rfl | rfl <;> rfl

end Sys2Proof.Proofs
end

section
/-! PROOFS. The resets (R340 to R344). A reset that goes on is the function `resetOf` of the state, which neither reads
nor writes the queue and the last answer; the one fault is the first reset of a store that cannot be had (R299). -/

namespace Sys2Proof.Proofs

open Sys2Proof.Machine Sys2Proof.Claims

/-! ## The reset of the NVRAM (R344) -/

theorem resetNv_of_allocated {s : State} (h : s.nv.allocated = true) : resetNv s = .next s := if_pos h

theorem resetNv_of_available {s : State} (hnot : s.nv.allocated = false) (havail : s.inputs.storeAvailable = true) :
    resetNv s = .next { s with nv := .reset } := by
  simp [resetNv, hnot, havail]

theorem resetNv_of_unavailable {s : State} (hnot : s.nv.allocated = false) (hnone : s.inputs.storeAvailable = false) :
    resetNv s = .fault .nvAlloc := by
  simp [resetNv, hnot, hnone]

theorem resetOf_nv_of_allocated {s : State} (h : s.nv.allocated = true) : resetOf .nv s = s := if_pos h

theorem resetOf_nv_of_unallocated {s : State} (h : s.nv.allocated = false) :
    resetOf .nv s = { s with nv := .reset } := by
  simp [resetOf, h, Nv.reset]

theorem resetNv_eq_resetOf {s : State} (h : s.nv.allocated = true ∨ s.inputs.storeAvailable = true) :
    resetNv s = .next (resetOf .nv s) := by
  cases halloc : s.nv.allocated with
  | true => rw [resetNv_of_allocated halloc, resetOf_nv_of_allocated halloc]
  | false =>
    have havail : s.inputs.storeAvailable = true := h.resolve_left (by simp [halloc])
    rw [resetNv_of_available halloc havail, resetOf_nv_of_unallocated halloc]

/-! ## The reset of any device (R340 to R345) -/

/-- A device's reset goes on but for the store's, which needs a store. -/
theorem runReset_eq_resetOf {d : Device} {s : State}
    (h : d = .nv → s.nv.allocated = true ∨ s.inputs.storeAvailable = true) : runReset d s = .next (resetOf d s) := by
  cases d with
  | csr | tmr | uart | fdc => rfl
  | nv => exact resetNv_eq_resetOf (h rfl)

/-- No reset reads or writes the queue and the last answer. -/
theorem resetOf_start (d : Device) (s : State) (rest : List Op) :
    resetOf d (s.start rest) = (resetOf d s).start rest := by
  cases d with
  | csr | tmr | uart | fdc => rfl
  | nv =>
    cases halloc : s.nv.allocated with
    | true =>
      rw [resetOf_nv_of_allocated halloc]
      exact resetOf_nv_of_allocated (s := s.start rest) halloc
    | false =>
      rw [resetOf_nv_of_unallocated halloc]
      exact resetOf_nv_of_unallocated (s := s.start rest) halloc

/-! ## Resets as steps -/

theorem step_reset {s : State} {d : Device} {rest : List Op} (h : s.pending = .reset d :: rest) :
    step s = runReset d (s.start rest) := by
  rw [step, h]; rfl

/-- A reset at the head of the queue that goes on. -/
theorem step_reset_eq_resetOf {s : State} {d : Device} {rest : List Op} (hpending : s.pending = .reset d :: rest)
    (hstore : d = .nv → s.nv.allocated = true ∨ s.inputs.storeAvailable = true) :
    step s = .next ((resetOf d s).start rest) := by
  rw [step_reset hpending, ← resetOf_start]
  exact runReset_eq_resetOf hstore

/-- A host stops on a fatal fault (R311, log 11). -/
theorem stepOn_of_fatal {s : State} {f : Fault} (hstep : step s = .fault f) (hfatal : f.fatal = true) :
    stepOn s = .fault f := by
  simp [stepOn, hstep, hfatal]

/-- Settles O57: a reset that goes on is `resetOf` (`step_reset_eq_resetOf`); the store's is the fault otherwise. -/
theorem resetWritesOwnDevice : Obligations.ResetWritesOwnDevice := by
  intro s d rest hpending
  refine ⟨step_reset_eq_resetOf hpending, fun hd hnot hnone => ?fault⟩
  case fault =>
    subst hd
    have hstep : step s = .fault .nvAlloc := by
      rw [step_reset hpending]
      exact resetNv_of_unavailable (s := s.start rest) hnot hnone
    exact ⟨hstep, stepOn_of_fatal hstep rfl⟩

end Sys2Proof.Proofs
end

section
/-! PROOFS. The decoder as a whole (R90 to R97). One predicate says of an answer of the decoder that it is right for what
the access addresses: the operation is well formed and encoded as an access to the same target, and a rejection means
an offset outside the window. -/

namespace Sys2Proof.Proofs

open Sys2Proof.Machine Sys2Proof.Claims Sys2Proof.Laws

/-! ## What an access addresses -/

/-- What an access addresses: the registers of a device, the store, or one of the two kinds of command bytes. -/
inductive Target where
  | registers (dev : RegDevice)
  | store
  | uartCommand
  | fdcCommand

/-- The target of an access: its format, and in the BUS format its device (R90, R96, R97). -/
def target : Access → Target
  | .bus dev _ _ _ => .registers dev
  | .nv _ _ _ _ => .store
  | .uartCmd _ _ => .uartCommand
  | .fdcCmd _ => .fdcCommand

/-- The number of offsets of a register device's window (R71). -/
def regWindow : RegDevice → Nat
  | .csr => 128
  | .tmr => 4
  | .uart => 16
  | .fdc => 4

/-- An access that names an operation: any but one at an offset outside its device's window (R71, R90). -/
def namesOperation : Access → Prop
  | .bus dev sel _ _ => selOffset sel < regWindow dev
  | _ => True

/-- An answer is right for an access to target `tgt` that names an operation exactly where `named` holds. -/
def answersFor (tgt : Target) (named : Prop) : Decoded → Prop
  | .instr i => named ∧ i.wellFormed = true ∧ target (encode i) = tgt
  | .rejected _ => ¬named

theorem selOffset_eq (sel : Byte) : selOffset sel = sel.toNat % 128 := BitVec.toNat_setWidth 7 sel

/-! ## Each table of the decoder -/

theorem decodeUartRead_answersFor (off : Nat) (sz : AccSize) :
    answersFor (.registers .uart) (off < 16) (decodeUartRead off sz) := by
  unfold decodeUartRead
  split
  case h_17 => intro hlt; grind
  all_goals exact ⟨by decide, rfl, rfl⟩

theorem decodeUartWrite_answersFor (off : Nat) {sz : AccSize} {v : Word} (hv : valueFits sz v = true) :
    answersFor (.registers .uart) (off < 16) (decodeUartWrite off sz v) := by
  unfold decodeUartWrite
  split
  case h_17 => intro hlt; grind
  all_goals exact ⟨by decide, hv, rfl⟩

theorem decodeTmrRead_answersFor (off : Nat) (sz : AccSize) :
    answersFor (.registers .tmr) (off < 4) (decodeTmrRead off sz) := by
  unfold decodeTmrRead
  split
  case h_5 => intro hlt; grind
  all_goals exact ⟨by decide, rfl, rfl⟩

theorem decodeTmrWrite_answersFor (off : Nat) {sz : AccSize} {v : Word} (hv : valueFits sz v = true) :
    answersFor (.registers .tmr) (off < 4) (decodeTmrWrite off sz v) := by
  unfold decodeTmrWrite
  split
  case h_5 => intro hlt; grind
  all_goals exact ⟨by decide, hv, rfl⟩

theorem decodeFdcRead_answersFor (off : Nat) (sz : AccSize) :
    answersFor (.registers .fdc) (off < 4) (decodeFdcRead off sz) := by
  unfold decodeFdcRead
  split
  case h_5 => intro hlt; grind
  all_goals exact ⟨by decide, rfl, rfl⟩

theorem decodeFdcWrite_answersFor (off : Nat) {sz : AccSize} {v : Word} (hv : valueFits sz v = true) :
    answersFor (.registers .fdc) (off < 4) (decodeFdcWrite off sz v) := by
  unfold decodeFdcWrite
  split
  case h_5 => intro hlt; grind
  all_goals exact ⟨by decide, hv, rfl⟩

/-- A CSR offset has 7 bits, so none lies outside the window of 128. -/
theorem selOffset_lt (sel : Byte) : selOffset sel < 128 := (sel.setWidth 7).isLt

theorem decodeCsrRead_answersFor (sel : Byte) (sz : AccSize) :
    answersFor (.registers .csr) (selOffset sel < 128) (decodeCsrRead sel sz) := by
  unfold decodeCsrRead
  split
  all_goals exact ⟨selOffset_lt sel, rfl, rfl⟩

theorem decodeCsrWrite_answersFor (sel : Byte) {sz : AccSize} {v : Word} (hv : valueFits sz v = true) :
    answersFor (.registers .csr) (selOffset sel < 128) (decodeCsrWrite sel sz v) := by
  unfold decodeCsrWrite
  split
  case h_4 => split <;> exact ⟨selOffset_lt sel, hv, rfl⟩
  all_goals exact ⟨selOffset_lt sel, hv, rfl⟩

theorem decodeUartCommand_answersFor (p : Port) (b : Byte) :
    answersFor .uartCommand True (.instr (decodeUartCommand p b)) := by
  unfold decodeUartCommand
  dsimp only
  split
  all_goals exact ⟨trivial, rfl, rfl⟩

theorem decodeFdcCommand_answersFor (b : Byte) : answersFor .fdcCommand True (.instr (decodeFdcCommand b)) := by
  unfold decodeFdcCommand
  dsimp only
  split
  all_goals exact ⟨trivial, rfl, rfl⟩

/-- The decoder's answer is right for every access; a written value fits because the decoder cuts it (log 10). -/
theorem decode_answersFor (a : Access) : answersFor (target a) (namesOperation a) (decode a) := by
  cases a with
  | bus dev sel sz v =>
    have hfits := keep_fits sz v
    by_cases hwrite : sel.getLsbD 7 = true
    · rw [decode, if_pos hwrite]
      cases dev with
      | csr => exact decodeCsrWrite_answersFor sel hfits
      | tmr => exact decodeTmrWrite_answersFor _ hfits
      | uart => exact decodeUartWrite_answersFor _ hfits
      | fdc => exact decodeFdcWrite_answersFor _ hfits
    · rw [decode, if_neg hwrite]
      cases dev with
      | csr => exact decodeCsrRead_answersFor sel sz
      | tmr => exact decodeTmrRead_answersFor _ sz
      | uart => exact decodeUartRead_answersFor _ sz
      | fdc => exact decodeFdcRead_answersFor _ sz
  | nv sel off sz v =>
    by_cases hwrite : sel.getLsbD 7 = true
    · rw [decode, if_pos hwrite]
      exact ⟨trivial, keep_fits sz v, rfl⟩
    · rw [decode, if_neg hwrite]
      exact ⟨trivial, rfl, rfl⟩
  | uartCmd p b => exact decodeUartCommand_answersFor p b
  | fdcCmd b => exact decodeFdcCommand_answersFor b

/-- A decoded operation is well formed and encoded as an access to the target it was read from. -/
theorem decode_instr {a : Access} {i : Instr} (h : decode a = .instr i) :
    i.wellFormed = true ∧ target (encode i) = target a := by
  have hright := decode_answersFor a
  rw [h] at hright
  obtain ⟨-, hwf, htarget⟩ := hright
  exact ⟨hwf, htarget⟩

theorem decode_rejected_iff (a : Access) : (∃ e, decode a = .rejected e) ↔ ¬namesOperation a := by
  have hright := decode_answersFor a
  cases hdec : decode a with
  | instr i =>
    rw [hdec] at hright
    obtain ⟨hnamed, -, -⟩ := hright
    exact ⟨fun ⟨_, he⟩ => Decoded.noConfusion he, fun hnot => absurd hnamed hnot⟩
  | rejected e =>
    rw [hdec] at hright
    exact ⟨fun _ => hright, fun _ => ⟨e, rfl⟩⟩

/-! ## Decoding and encoding -/

/-- Settles O1, row by row: the round trip of each row of the table. -/
theorem decodeOfEncodeIsIdentity : Obligations.DecodeOfEncodeIsIdentity := by
  intro i
  cases i with
  | uartRdMra sz => exact RoundTrip.uartRdMra sz
  | uartRdSra sz => exact RoundTrip.uartRdSra sz
  | uartRdRsv2 sz => exact RoundTrip.uartRdRsv2 sz
  | uartRdRhra sz => exact RoundTrip.uartRdRhra sz
  | uartRdIpcr sz => exact RoundTrip.uartRdIpcr sz
  | uartRdIsr sz => exact RoundTrip.uartRdIsr sz
  | uartRdCtu sz => exact RoundTrip.uartRdCtu sz
  | uartRdCtl sz => exact RoundTrip.uartRdCtl sz
  | uartRdMrb sz => exact RoundTrip.uartRdMrb sz
  | uartRdSrb sz => exact RoundTrip.uartRdSrb sz
  | uartRdRsv10 sz => exact RoundTrip.uartRdRsv10 sz
  | uartRdRhrb sz => exact RoundTrip.uartRdRhrb sz
  | uartRdRsv12 sz => exact RoundTrip.uartRdRsv12 sz
  | uartRdRsv13 sz => exact RoundTrip.uartRdRsv13 sz
  | uartRdStart sz => exact RoundTrip.uartRdStart sz
  | uartRdStop sz => exact RoundTrip.uartRdStop sz
  | uartWrMra sz v => exact RoundTrip.uartWrMra sz v
  | uartWrCsra sz v => exact RoundTrip.uartWrCsra sz v
  | uartWrCra sz v => exact RoundTrip.uartWrCra sz v
  | uartWrThra sz v => exact RoundTrip.uartWrThra sz v
  | uartWrAcr sz v => exact RoundTrip.uartWrAcr sz v
  | uartWrImr sz v => exact RoundTrip.uartWrImr sz v
  | uartWrCtur sz v => exact RoundTrip.uartWrCtur sz v
  | uartWrCtlr sz v => exact RoundTrip.uartWrCtlr sz v
  | uartWrMrb sz v => exact RoundTrip.uartWrMrb sz v
  | uartWrCsrb sz v => exact RoundTrip.uartWrCsrb sz v
  | uartWrCrb sz v => exact RoundTrip.uartWrCrb sz v
  | uartWrThrb sz v => exact RoundTrip.uartWrThrb sz v
  | uartWrRsv12 sz v => exact RoundTrip.uartWrRsv12 sz v
  | uartWrRsv13 sz v => exact RoundTrip.uartWrRsv13 sz v
  | uartWrSopr sz v => exact RoundTrip.uartWrSopr sz v
  | uartWrRopr sz v => exact RoundTrip.uartWrRopr sz v
  | uartCmdMisc0 p x dtx etx drx erx => exact RoundTrip.uartCmdMisc0 p x dtx etx drx erx
  | uartCmdMisc1 p x dtx etx drx erx => exact RoundTrip.uartCmdMisc1 p x dtx etx drx erx
  | uartCmdMisc2 p x dtx etx drx erx => exact RoundTrip.uartCmdMisc2 p x dtx etx drx erx
  | uartCmdMisc3 p x dtx etx drx erx => exact RoundTrip.uartCmdMisc3 p x dtx etx drx erx
  | uartCmdMisc4 p x dtx etx drx erx => exact RoundTrip.uartCmdMisc4 p x dtx etx drx erx
  | uartCmdMisc5 p x dtx etx drx erx => exact RoundTrip.uartCmdMisc5 p x dtx etx drx erx
  | uartCmdMisc6 p x dtx etx drx erx => exact RoundTrip.uartCmdMisc6 p x dtx etx drx erx
  | uartCmdMisc7 p x dtx etx drx erx => exact RoundTrip.uartCmdMisc7 p x dtx etx drx erx
  | tmrRdC0 sz => exact RoundTrip.tmrRdC0 sz
  | tmrRdC1 sz => exact RoundTrip.tmrRdC1 sz
  | tmrRdC2 sz => exact RoundTrip.tmrRdC2 sz
  | tmrRdCtl sz => exact RoundTrip.tmrRdCtl sz
  | tmrWrC0 sz v => exact RoundTrip.tmrWrC0 sz v
  | tmrWrC1 sz v => exact RoundTrip.tmrWrC1 sz v
  | tmrWrC2 sz v => exact RoundTrip.tmrWrC2 sz v
  | tmrWrCtl sz v => exact RoundTrip.tmrWrCtl sz v
  | csrRd w k sz => exact RoundTrip.csrRd w k sz
  | csrRdNop0 x sz => exact RoundTrip.csrRdNop0 x sz
  | csrRdNop1 x sz => exact RoundTrip.csrRdNop1 x sz
  | csrRdNop2 x sz => exact RoundTrip.csrRdNop2 x sz
  | csrClr k sz v => exact RoundTrip.csrClr k sz v
  | csrSet k sz v => exact RoundTrip.csrSet k sz v
  | csrWrNop0 x sz v => exact RoundTrip.csrWrNop0 x sz v
  | csrWrNop1 x sz v => exact RoundTrip.csrWrNop1 x sz v
  | csrWrNop2 x sz v => exact RoundTrip.csrWrNop2 x sz v
  | fdcRdStatus sz => exact RoundTrip.fdcRdStatus sz
  | fdcRdTrack sz => exact RoundTrip.fdcRdTrack sz
  | fdcRdSector sz => exact RoundTrip.fdcRdSector sz
  | fdcRdData sz => exact RoundTrip.fdcRdData sz
  | fdcWrCmd sz v => exact RoundTrip.fdcWrCmd sz v
  | fdcWrTrack sz v => exact RoundTrip.fdcWrTrack sz v
  | fdcWrSector sz v => exact RoundTrip.fdcWrSector sz v
  | fdcWrData sz v => exact RoundTrip.fdcWrData sz v
  | fdcRestore h ver r => exact RoundTrip.fdcRestore h ver r
  | fdcSeek h ver r => exact RoundTrip.fdcSeek h ver r
  | fdcStep u h ver r => exact RoundTrip.fdcStep u h ver r
  | fdcStepIn u h ver r => exact RoundTrip.fdcStepIn u h ver r
  | fdcStepOut u h ver r => exact RoundTrip.fdcStepOut u h ver r
  | fdcReadSec l e side x => exact RoundTrip.fdcReadSec l e side x
  | fdcReadSecMulti l e side x => exact RoundTrip.fdcReadSecMulti l e side x
  | fdcWriteSec l e side x => exact RoundTrip.fdcWriteSec l e side x
  | fdcWriteSecMulti l e side x => exact RoundTrip.fdcWriteSecMulti l e side x
  | fdcReadAddress y e side x => exact RoundTrip.fdcReadAddress y e side x
  | fdcForceInterrupt cond => exact RoundTrip.fdcForceInterrupt cond
  | fdcReadTrack y e side x => exact RoundTrip.fdcReadTrack y e side x
  | fdcWriteTrack y e side x => exact RoundTrip.fdcWriteTrack y e side x
  | nvRd off sz => exact RoundTrip.nvRd off sz
  | nvWr off sz v => exact RoundTrip.nvWr off sz v

/-- Settles O2: a decoded operation is well formed, so its round trip holds. -/
theorem decodedIsWellFormedAndReencodes : Obligations.DecodedIsWellFormedAndReencodes := by
  intro a i h
  obtain ⟨hwf, -⟩ := decode_instr h
  exact ⟨hwf, decodeOfEncodeIsIdentity i hwf⟩

/-- Settles O3: `decode_rejected_iff`, the window's size told device by device. -/
theorem onlyOffsetsOutsideTheWindowAreRejected : Obligations.OnlyOffsetsOutsideTheWindowAreRejected := by
  intro a
  rw [decode_rejected_iff]
  cases a with
  | bus dev sel sz v =>
    rw [namesOperation, selOffset_eq]
    cases dev with
    | csr => exact iff_of_false (not_not_intro (Nat.mod_lt _ (by decide))) id
    | tmr | uart | fdc => exact Nat.not_lt
  | nv | uartCmd | fdcCmd => exact not_true

/-- Settles O4: each word is evaluated by the decoder. -/
theorem sampleWordsDecode : Obligations.SampleWordsDecode :=
  ⟨rfl, rfl, rfl, rfl, rfl, rfl, rfl, rfl, rfl, rfl⟩

end Sys2Proof.Proofs
end

section
/-! PROOFS. What a step can do, said once. `Changes` composes a step from single writes of the state, `allows` says of an
outcome that it is such a composition or a fault where one can be, and `runOp_allows` says it of every operation. Each
fact about every step is then read off the single writes. -/

namespace Sys2Proof.Proofs

open Sys2Proof.Machine Sys2Proof.Claims Sys2Proof.Laws

/-! ## The single writes -/

/-- What an operation can do to the timer: load a channel, tick, reset (R143, R145, R341). -/
inductive TmrWrite (t : Tmr) : Tmr → Prop where
  | load (i : Fin 3) (d : Half) : TmrWrite t (withChan t i (.load d))
  | tick : TmrWrite t t.tick
  | reset : TmrWrite t .reset

/-- What an operation can do to the UART. A command byte is one write, because between its enable bits and its transmit
update the status does not follow the enables (R30, R166). -/
inductive UartWrite : Uart → Uart → Prop where
  | refl (u : Uart) : UartWrite u u
  | trans {u v w : Uart} : UartWrite u v → UartWrite v w → UartWrite u w
  | port (u : Uart) (p : Port) (q : UartPort) (hstatus : q.status = (u.port p).status)
      (hen : q.txEn = (u.port p).txEn) : UartWrite u (u.setPort p q)
  | shared (u : Uart) (imask acr : Byte) (set value : Half) (enabled : Bool) :
      UartWrite u { u with imask := imask, acr := acr, counterSet := set, counterValue := value,
                           counterEnabled := enabled }
  | cri (u : Uart) (b : Bool) : UartWrite u { u with istat := setBit u.istat criBit b }
  | receive (u : Uart) (p : Port) (b : Bool) : UartWrite u (u.setRx p b)
  | transmit (u : Uart) : UartWrite u u.txStatus
  | command (u : Uart) (p : Port) (b : Byte) (m : BitVec 3) : UartWrite u (commanded p b m u).txStatus
  | reset (u : Uart) : UartWrite u .reset

/-- What an operation can do to the floppy controller. A transfer is published only by a command of class II or III that
is under way (R251, R256, R257). -/
inductive FdcWrite (lat : Nat) : Fdc → Fdc → Prop where
  | trans {f g h : Fdc} : FdcWrite lat f g → FdcWrite lat g h → FdcWrite lat f h
  | registers (f : Fdc) (track sector data : Byte) (dir : StepDir) (multi : Bool) (id : IdField) :
      FdcWrite lat f { f with track := track, sector := sector, data := data, stepDir := dir, multi := multi,
                              idField := id }
  | head (f : Fdc) (n : Nat) (h : n < Config.fdcTracks) : FdcWrite lat f { f with physTrack := n }
  | accept (f : Fdc) (b : Byte) (h : fdcClass b ≠ .typeIV) : FdcWrite lat f (f.accept b lat)
  | force (f : Fdc) (b : Byte) (h : fdcClass b = .typeIV) :
      FdcWrite lat f { f with cmd := b, cmdType := .typeIV, phase := .idle, drq := false, xfer := none, multi := false,
                              status := 0x00 }
  | countdown (f : Fdc) (n : Nat) (hphase : f.phase = .exec n) (hn : 1 < n) :
      FdcWrite lat f { f with phase := .exec (n - 1) }
  | publish (f : Fdc) (x : Xfer) (hphase : f.phase ≠ .idle)
      (hclass : f.cmdType = fdcClass f.cmd → f.cmdType = .typeII ∨ f.cmdType = .typeIII) :
      FdcWrite lat f { f with xfer := some x, drq := true, phase := .waitDrq }
  | finish (f : Fdc) (st : Byte) (h : st.getLsbD 0 = false) :
      FdcWrite lat f { f with status := st, drq := false, xfer := none, multi := false, phase := .idle }
  | reset (f : Fdc) : FdcWrite lat f .reset

/-- What an operation can do to the store of `size` bytes: write bytes in it, load an image of its length, allocate it
(R295, R297, R344). -/
inductive NvWrite (size : Nat) (nv : Nv) : Nv → Prop where
  | bytes (o n : Nat) (v : Word) (h : o + n ≤ size) : NvWrite size nv { nv with bytes := nvWrite nv.bytes o n v }
  | image (bs : List Byte) (h : bs.length = size) : NvWrite size nv { nv with bytes := Memory.ofImage 0 bs }
  | allocate : NvWrite size nv .reset

/-- The second state comes from the first by single writes. The devices drive causes 2 and 3; any other write of the
CSR needs `anyCause`. -/
inductive Changes (anyCause : Prop) : State → State → Prop where
  | refl (s : State) : Changes anyCause s s
  | trans {s t u : State} : Changes anyCause s t → Changes anyCause t u → Changes anyCause s u
  | start (s : State) (rest : List Op) : Changes anyCause s (s.start rest)
  | answer (s : State) (r : Returned) : Changes anyCause s (s.answer r)
  | emit (s : State) (e : OutEvent) : Changes anyCause s (s.emit e)
  | inputs (s : State) (i : Inputs) : Changes anyCause s { s with inputs := i }
  | cause (s : State) (k : Nat) (b : Bool) (h : k = 2 ∨ k = 3) : Changes anyCause s (withCause s k b)
  | csr (s : State) (c : Csr) (h : anyCause) : Changes anyCause s { s with csr := c }
  | timer (s : State) (t : Tmr) (h : TmrWrite s.tmr t) : Changes anyCause s (s.withTmr t)
  | uart (s : State) (u : Uart) (h : UartWrite s.uart u) : Changes anyCause s (s.withUart u)
  | fdc (s : State) (f : Fdc) (h : FdcWrite s.params.fdcLatency s.fdc f) : Changes anyCause s (s.withFdc f)
  | store (s : State) (nv : Nv) (h : NvWrite s.params.nvramSize s.nv nv) : Changes anyCause s { s with nv := nv }

section
variable {anyCause : Prop}

/-! ## The UART's operations -/

theorem recompute_changes (s : State) : Changes anyCause s s.recompute := by
  unfold State.recompute
  split
  · exact .trans (.cause s 3 true (.inr rfl)) (.emit _ _)
  · exact .cause s 3 false (.inr rfl)

/-- A write of the UART and the recompute that follows it. -/
theorem uart_recompute_changes {s : State} {u : Uart} (h : UartWrite s.uart u) :
    Changes anyCause s (s.withUart u).recompute :=
  .trans (.uart s u h) (recompute_changes _)

theorem modeRead_changes (p : Port) (sz : AccSize) (s : State) : Changes anyCause s (modeRead p sz s) :=
  .trans (.uart s _ (.port _ p (s.uart.port p).cycleMode rfl rfl)) (.answer _ _)

theorem modeWrite_changes (p : Port) (b : Byte) (s : State) : Changes anyCause s (modeWrite p b s) :=
  .uart s _ (.port _ p _ (UartPort.storeMode_status _ b) (UartPort.storeMode_txEn _ b))

/-- A read that clears the receive-ready state, whatever it answers (R164, R165). -/
theorem clearRx_answer_changes (p : Port) (r : Returned) (s : State) : Changes anyCause s ((clearRx p s).answer r) :=
  .trans (uart_recompute_changes (.receive _ p false)) (.answer _ r)

theorem commandWith_changes (p : Port) (b : Byte) (m : BitVec 3) (s : State) :
    Changes anyCause s (commandWith p b (fun q => misc q m) s) :=
  uart_recompute_changes (.command _ p b m)

theorem txWrite_changes (p : Port) (b : Byte) (s : State) : Changes anyCause s (txWrite p b s) := by
  have hbuffer : Changes anyCause s (s.withUart (withTxbuf p b s.uart)) := .uart s _ (.port _ p _ rfl rfl)
  unfold txWrite
  dsimp only
  split
  · exact .trans hbuffer (.trans (.emit _ (.tx p b)) (uart_recompute_changes (.transmit _)))
  · exact .trans hbuffer (uart_recompute_changes (.transmit _))

theorem stop_changes (s : State) :
    Changes anyCause s (s.withUart { s.uart with
      counterEnabled := false, istat := setBit s.uart.istat criBit false }).recompute :=
  uart_recompute_changes (.trans (.shared s.uart _ _ _ _ false) (.cri _ false))

theorem counterTick_changes (s : State) : Changes anyCause s (counterTick s) := by
  rcases counterTick_cases s with ⟨-, e⟩ | ⟨-, -, e⟩ | ⟨-, -, e⟩ <;> rw [e]
  · exact .refl s
  · exact .uart s _ (.shared _ _ _ _ _ _)
  · exact uart_recompute_changes (.trans (.shared s.uart _ _ _ s.uart.counterSet false) (.cri _ true))

theorem deliverTo_write (u : Uart) (c : Byte) (p : Port) : UartWrite u (u.deliverTo c p) := by
  unfold Uart.deliverTo
  split
  · split
    · exact .refl u
    · exact .trans (.port u p { u.port p with rxbuf := c } rfl rfl) (.receive _ p true)
  · exact .receive u p false

theorem rxDeliver_changes (c : Byte) (s : State) : Changes anyCause s (rxDeliver c s) :=
  uart_recompute_changes (.trans (deliverTo_write _ c .a) (deliverTo_write _ c .b))

theorem serviceUart_changes (s : State) : Changes anyCause s (serviceUart s) := by
  have hpoll : ∀ t : State, Changes anyCause t (poll t) := by
    intro t
    rcases poll_cases t with ⟨-, e⟩ | ⟨c, -, -, e⟩ | ⟨c, -, -, e⟩ <;> rw [e]
    · exact .refl t
    · exact .inputs t _
    · exact .trans (.inputs t _) (rxDeliver_changes c _)
  exact .trans (counterTick_changes s) (hpoll _)

/-! ## The floppy controller's operations -/

theorem finish_changes {st : Byte} (h : st.getLsbD 0 = false) (s : State) : Changes anyCause s (finish st s) :=
  .trans (.fdc s _ (.finish _ st h)) (.cause _ 2 true (.inl rfl))

/-- A Type I command on the controller f its head movement made. -/
theorem typeIFinish_changes (hd ver : Bool) {f : Fdc} {s : State} (h : FdcWrite s.params.fdcLatency s.fdc f) :
    Changes anyCause s (typeIFinish hd ver (s.withFdc f)) :=
  .trans (.fdc s f h) (finish_changes (typeIStatus_getLsbD f _ hd ver (by decide)) _)

theorem restore_write (lat : Nat) (f : Fdc) : FdcWrite lat f f.restore :=
  .trans (.registers f 0 f.sector f.data .outward f.multi f.idField) (.head _ 0 (by decide))

theorem seek_write (lat : Nat) (f : Fdc) : FdcWrite lat f f.seek :=
  .trans (.registers f f.data f.sector f.data _ f.multi f.idField) (.head _ _ (clampTrack_lt _))

theorem step_write (lat : Nat) (f : Fdc) (d : StepDir) (u : Bool) :
    FdcWrite lat f (Fdc.step { f with stepDir := d } u) :=
  .trans (.registers f (if u then stepTrack f.track d else f.track) f.sector f.data d f.multi f.idField)
    (.head _ _ (clampTrack_lt _))

theorem forceInterrupt_changes {b : Byte} (h : fdcClass b = .typeIV) (s : State) :
    Changes anyCause s (forceInterrupt b s) := by
  rw [forceInterrupt_eq]
  exact .trans (.fdc s _ (.force _ b h)) (.cause _ 2 _ (.inl rfl))

theorem forceByte_class (cond : BitVec 4) : fdcClass (forceByte cond) = .typeIV := by
  revert cond; decide

theorem fdcCommandWrite_changes (b : Byte) (s : State) : Changes anyCause s (fdcCommandWrite b s) := by
  rcases fdcCommandWrite_cases b s with ⟨hclass, e⟩ | ⟨-, -, e⟩ | ⟨hclass, -, e⟩ <;> rw [e]
  · exact forceInterrupt_changes hclass s
  · exact .refl s
  · exact .trans (.fdc s _ (.accept _ b hclass)) (.cause _ 2 false (.inl rfl))

theorem statusReadState_changes (sz : AccSize) (s : State) : Changes anyCause s (statusReadState sz s) := by
  have hdraw : Changes anyCause s (afterStatusValue s) := by
    rw [afterStatusValue_frame]
    exact .inputs s _
  exact .trans hdraw (.trans (.cause _ 2 false (.inl rfl)) (.answer _ _))

/-- A command of class II or III is under way, where `cmd_type` is the class of the byte in `cmd`. -/
def transferring (f : Fdc) : Prop :=
  f.phase ≠ .idle ∧ (f.cmdType = fdcClass f.cmd → f.cmdType = .typeII ∨ f.cmdType = .typeIII)

theorem publish_changes (x : Xfer) {s : State} (h : transferring s.fdc) : Changes anyCause s (publish x s) := by
  obtain ⟨hphase, hclass⟩ := h
  exact .fdc s _ (.publish _ x hphase hclass)

theorem sectorStart_changes (dir : XferDir) {s : State} (h : transferring s.fdc) :
    Changes anyCause s (sectorStart dir s) := by
  rcases sectorStart_cases dir s with ⟨-, e⟩ | ⟨-, -, -, e⟩ | ⟨-, -, -, e⟩ | ⟨-, -, -, e⟩ <;> rw [e]
  case inr.inr.inr => exact publish_changes _ h
  all_goals exact finish_changes (by decide) s

/-- A multi-sector command sets `multi` first (R253, R255). -/
theorem sectorRow_changes (dir : XferDir) (multi : Bool) {s : State} (h : transferring s.fdc) :
    Changes anyCause s (sectorStart dir (s.withFdc (withMulti multi s.fdc))) := by
  cases multi with
  | false => exact sectorStart_changes dir (s := s.withFdc s.fdc) h
  | true =>
    exact .trans (.fdc s _ (.registers s.fdc _ _ _ _ true _))
      (sectorStart_changes dir (s := s.withFdc { s.fdc with multi := true }) h)

theorem trackStart_changes (dir : XferDir) {s : State} (h : transferring s.fdc) :
    Changes anyCause s (trackStart dir s) := by
  rcases trackStart_cases dir s with ⟨-, e⟩ | ⟨-, -, -, e⟩ | ⟨-, -, e⟩ <;> rw [e]
  case inr.inr => exact publish_changes _ h
  all_goals exact finish_changes (by decide) s

theorem readAddress_changes {s : State} (h : transferring s.fdc) : Changes anyCause s (readAddress s) := by
  have hrecord : Changes anyCause s.afterDraw.afterDraw (s.afterDraw.afterDraw.withFdc { s.fdc with
      idField := idRecord s.fdc (drawnSector s.drawn) (s.afterDraw.drawn.setWidth 16)
      sector := BitVec.ofNat 8 s.fdc.physTrack }) :=
    .fdc _ _ (.registers s.fdc _ _ _ _ _ _)
  exact .trans (.inputs s _) (.trans hrecord (publish_changes _ h))

/-- The next sector of a multi-sector command: `SectorStart` reads neither DRQ nor the old descriptor. -/
theorem sectorStart_nextSector (dir : XferDir) (sector : Byte) (s : State) :
    sectorStart dir (s.withFdc { s.fdc with drq := false, xfer := none, sector := sector }) =
      sectorStart dir (s.withFdc { s.fdc with sector := sector }) := rfl

theorem fdcDrqAck_changes (s : State) : Changes anyCause s (fdcDrqAck s) := by
  rcases fdcDrqAck_cases s with ⟨-, e⟩ | ⟨hphase, htype, -, e⟩ | ⟨-, -, e⟩ <;> rw [e]
  · exact .refl s
  · have hwaits : transferring { s.fdc with sector := s.fdc.sector + 1 } :=
      ⟨by rw [hphase]; decide, fun _ => .inl htype⟩
    rw [sectorStart_nextSector]
    exact .trans (.fdc s _ (.registers s.fdc _ (s.fdc.sector + 1) _ _ _ _))
      (sectorStart_changes _ (s := s.withFdc { s.fdc with sector := s.fdc.sector + 1 }) hwaits)
  · exact finish_changes (by decide) s

theorem fdcDataLate_changes (s : State) : Changes anyCause s (fdcDataLate s) := by
  rcases fdcDataLate_cases s with ⟨-, e⟩ | ⟨-, e⟩ <;> rw [e]
  · exact .refl s
  · exact finish_changes (by decide) s

end

/-! ## What an operation's outcome can be -/

/-- An outcome from s: single writes, or a fault where `faults` holds; never a refusal. -/
def allows (anyCause faults : Prop) (s : State) : Result → Prop
  | .next t => Changes anyCause s t
  | .fault _ => faults
  | .refused _ => False

section
variable {anyCause faults : Prop}

theorem nvRd_allows (off : Nat) (sz : AccSize) (s : State) (hstore : faults) :
    allows anyCause faults s (exec (.nvRd off sz) s) := by
  rw [exec_nvRd, execNvRd]
  split
  · exact hstore
  · exact Changes.answer s _

theorem nvWr_allows (off : Nat) (sz : AccSize) (v : Word) (s : State) (hstore : faults) :
    allows anyCause faults s (exec (.nvWr off sz v) s) := by
  rw [exec_nvWr, execNvWr]
  split
  case h_1 => exact hstore
  case h_2 hcheck =>
    obtain ⟨-, hrange⟩ := (nvCheck_none s off _).1 hcheck
    exact Changes.store s _ (.bytes off _ v hrange)

/-- The meaning of every row but the floppy commands, whose rows run only where the controller executes one (log 8). -/
theorem exec_allows {i : Instr} (s : State) (hcmd : target (encode i) ≠ .fdcCommand)
    (hcsr : target (encode i) = .registers .csr → anyCause) (hstore : target (encode i) = .store → faults) :
    allows anyCause faults s (exec i s) := by
  cases i with
  | uartRdMra sz => exact modeRead_changes .a sz s
  | uartRdMrb sz => exact modeRead_changes .b sz s
  | uartRdSra | uartRdRhra => exact clearRx_answer_changes .a _ s
  | uartRdSrb | uartRdRhrb => exact clearRx_answer_changes .b _ s
  | uartRdRsv2 | uartRdIpcr | uartRdIsr | uartRdCtu | uartRdCtl | uartRdRsv10 | uartRdRsv12 | uartRdRsv13 | tmrRdC0
  | tmrRdC1 | tmrRdC2 | tmrRdCtl | csrRd | csrRdNop0 | csrRdNop1 | csrRdNop2 | fdcRdTrack | fdcRdSector
  | fdcRdData => exact Changes.answer s _
  | uartRdStart => exact Changes.trans (.uart s _ (.shared s.uart _ _ _ _ true)) (.answer _ _)
  | uartRdStop => exact Changes.trans (stop_changes s) (.answer _ _)
  | uartWrMra sz v => exact modeWrite_changes .a _ s
  | uartWrMrb sz v => exact modeWrite_changes .b _ s
  | uartWrCra sz v => exact commandWith_changes .a _ _ s
  | uartWrCrb sz v => exact commandWith_changes .b _ _ s
  | uartWrThra sz v => exact txWrite_changes .a _ s
  | uartWrThrb sz v => exact txWrite_changes .b _ s
  | uartWrAcr | uartWrCtur | uartWrCtlr => exact Changes.uart s _ (.shared s.uart _ _ _ _ _)
  | uartWrImr => exact uart_recompute_changes (.shared s.uart _ _ _ _ _)
  | uartWrCsra | uartWrCsrb | uartWrRsv12 | uartWrRsv13 | uartWrSopr | uartWrRopr | tmrWrCtl | csrWrNop0 | csrWrNop1
  | csrWrNop2 => exact Changes.refl s
  | uartCmdMisc0 p => exact commandWith_changes p _ 0 s
  | uartCmdMisc1 p => exact commandWith_changes p _ 1 s
  | uartCmdMisc2 p => exact commandWith_changes p _ 2 s
  | uartCmdMisc3 p => exact commandWith_changes p _ 3 s
  | uartCmdMisc4 p => exact commandWith_changes p _ 4 s
  | uartCmdMisc5 p => exact commandWith_changes p _ 5 s
  | uartCmdMisc6 p => exact commandWith_changes p _ 6 s
  | uartCmdMisc7 p => exact commandWith_changes p _ 7 s
  | tmrWrC0 sz v => exact Changes.timer s _ (.load 0 _)
  | tmrWrC1 sz v => exact Changes.timer s _ (.load 1 _)
  | tmrWrC2 sz v => exact Changes.timer s _ (.load 2 _)
  | csrClr | csrSet => exact Changes.csr s _ (hcsr rfl)
  | fdcRdStatus sz => exact statusReadState_changes sz s
  | fdcWrCmd sz v => exact fdcCommandWrite_changes _ s
  | fdcWrTrack | fdcWrSector | fdcWrData => exact Changes.fdc s _ (.registers s.fdc _ _ _ _ _ _)
  | fdcRestore | fdcSeek | fdcStep | fdcStepIn | fdcStepOut | fdcReadSec | fdcReadSecMulti | fdcWriteSec
  | fdcWriteSecMulti | fdcReadAddress | fdcForceInterrupt | fdcReadTrack | fdcWriteTrack => exact absurd rfl hcmd
  | nvRd off sz => exact nvRd_allows off sz s (hstore rfl)
  | nvWr off sz v => exact nvWr_allows off sz v s (hstore rfl)

/-- An access as the bus master issues it is no command byte of the floppy controller (log 8). -/
theorem target_issuedAccess_ne (a : Access) : target (issuedAccess a) ≠ .fdcCommand := by
  cases a with
  | bus | nv | uartCmd | fdcCmd => exact fun h => Target.noConfusion h

theorem unmapped_changes (a : Access) (s : State) : Changes anyCause s (unmapped a s) := by
  cases a with
  | bus =>
    unfold unmapped
    dsimp only
    split
    · exact .refl s
    · exact .answer s _
  | nv | uartCmd | fdcCmd => exact .refl s

theorem runAccess_allows {a : Access} (s : State) (hcsr : target (issuedAccess a) = .registers .csr → anyCause)
    (hstore : target (issuedAccess a) = .store → faults) : allows anyCause faults s (runAccess a s) := by
  unfold runAccess
  cases hdec : decode (issuedAccess a) with
  | rejected e => exact unmapped_changes a s
  | instr i =>
    obtain ⟨-, htarget⟩ := decode_instr hdec
    rw [← htarget] at hcsr hstore
    exact exec_allows s (htarget ▸ target_issuedAccess_ne a) hcsr hstore

/-- A command byte of a nibble from 8 on but D is of class II or III (R231). -/
theorem transferring_of_nibble {f : Fdc} (hphase : f.phase ≠ .idle) (hn : 8 ≤ (f.cmd.extractLsb' 4 4).toNat)
    (hnot : (f.cmd.extractLsb' 4 4).toNat ≠ 13) : transferring f := by
  have hclass : ∀ b : Byte, 8 ≤ (b.extractLsb' 4 4).toNat → (b.extractLsb' 4 4).toNat ≠ 13 →
      fdcClass b = .typeII ∨ fdcClass b = .typeIII := by decide
  exact ⟨hphase, fun h => h ▸ hclass f.cmd hn hnot⟩

/-- The command an FDC tick executes, by the rows of R232. -/
theorem executeFdc_allows {s : State} (hphase : s.fdc.phase ≠ .idle) : allows anyCause faults s (executeFdc s) := by
  have htransfer := transferring_of_nibble hphase
  unfold executeFdc decodeFdcCommand
  dsimp only
  split
  · exact typeIFinish_changes _ _ (restore_write _ _)
  · exact typeIFinish_changes _ _ (seek_write _ _)
  · exact typeIFinish_changes _ _ (step_write _ s.fdc s.fdc.stepDir _)
  · exact typeIFinish_changes _ _ (step_write _ s.fdc s.fdc.stepDir _)
  · exact typeIFinish_changes _ _ (step_write _ s.fdc .inward _)
  · exact typeIFinish_changes _ _ (step_write _ s.fdc .inward _)
  · exact typeIFinish_changes _ _ (step_write _ s.fdc .outward _)
  · exact typeIFinish_changes _ _ (step_write _ s.fdc .outward _)
  · exact sectorRow_changes .toHost false (htransfer (by omega) (by omega))
  · exact sectorRow_changes .toHost true (htransfer (by omega) (by omega))
  · exact sectorRow_changes .toDisk false (htransfer (by omega) (by omega))
  · exact sectorRow_changes .toDisk true (htransfer (by omega) (by omega))
  · show Changes anyCause s (if s.inputs.fdcReady then readAddress s else finish 0x00 s)
    split
    · exact readAddress_changes (htransfer (by omega) (by omega))
    · exact finish_changes (by decide) s
  · exact forceInterrupt_changes (forceByte_class _) s
  · exact trackStart_changes .toHost (htransfer (by omega) (by omega))
  · exact trackStart_changes .toDisk (htransfer (by grind) (by grind))

theorem runService_allows (d : Device) (s : State) : allows anyCause faults s (runService d s) := by
  cases d with
  | csr | nv => exact Changes.refl s
  | tmr => exact Changes.timer s _ .tick
  | uart => exact serviceUart_changes s
  | fdc =>
    show allows anyCause faults s (serviceFdc s)
    cases hphase : s.fdc.phase with
    | idle => rw [serviceFdc_of_resting (.inl hphase)]; exact Changes.refl s
    | waitDrq => rw [serviceFdc_of_resting (.inr hphase)]; exact Changes.refl s
    | exec n =>
      rcases Nat.lt_or_ge 1 n with hn | hn
      · rw [serviceFdc_of_counting hphase hn]
        exact Changes.fdc s _ (.countdown _ n hphase hn)
      · rw [serviceFdc_of_due hphase hn]
        exact executeFdc_allows (by rw [hphase]; exact fun h => Phase.noConfusion h)

theorem runReset_allows (d : Device) (s : State) (hcsr : d = .csr → anyCause)
    (hstore : d = .nv ∧ s.nv.allocated = false → faults) : allows anyCause faults s (runReset d s) := by
  cases d with
  | csr => exact Changes.csr s _ (hcsr rfl)
  | tmr => exact Changes.timer s _ .reset
  | uart => exact Changes.uart s _ (.reset _)
  | fdc => exact Changes.fdc s _ (.reset _)
  | nv =>
    show allows anyCause faults s (resetNv s)
    unfold resetNv
    split
    case isTrue => exact Changes.refl s
    case isFalse hfree =>
      split
      · exact Changes.store s _ .allocate
      · exact hstore ⟨rfl, Bool.eq_false_iff.2 hfree⟩

/-- An access the router makes for the store comes from the store's window (R70). -/
theorem inWindow_of_routed {p : Config.Params} {dir : AccessDir} {pa : Nat} {sz : AccSize} {v : Word} {a : Access}
    (hrouted : routedAccess p dir pa sz v = some a) (hstore : target (issuedAccess a) = .store) :
    inWindow p .nv pa = true := by
  unfold routedAccess at hrouted
  split at hrouted
  case h_5 hroute => exact List.find?_some (p := (inWindow p · pa)) hroute
  case h_6 => cases hrouted
  all_goals
    cases hrouted
    exact Target.noConfusion hstore

end

/-- The operations that may write any CSR cause: a CSR access, an access at a physical address, the CSR's reset. -/
def writesAnyCause (op : Op) : Prop :=
  (∃ sel sz v, op = .access (.bus .csr sel sz v)) ∨ (∃ dir pa sz v, op = .phys dir pa sz v) ∨ op = .reset .csr

/-- The operations that may fault, all of them the store's (R292, R293, R297 to R299). -/
def mayFault (op : Op) (s : State) : Prop :=
  (∃ sel off sz v, op = .access (.nv sel off sz v)) ∨
    (∃ dir pa sz v, op = .phys dir pa sz v ∧ inWindow s.params .nv pa = true) ∨
    (op = .reset .nv ∧ s.nv.allocated = false) ∨ (∃ image, op = .nvLoad image) ∨ op = .nvSave

theorem access_writesAnyCause {a : Access} (h : target (issuedAccess a) = .registers .csr) :
    writesAnyCause (.access a) := by
  cases a with
  | bus dev sel sz v => cases h; exact .inl ⟨sel, sz, v, rfl⟩
  | nv | uartCmd | fdcCmd => cases h

theorem access_mayFault {a : Access} (h : target (issuedAccess a) = .store) (s : State) :
    mayFault (.access a) s := by
  cases a with
  | nv sel off sz v => exact .inl ⟨sel, off, sz, v, rfl⟩
  | bus | uartCmd | fdcCmd => cases h

section
variable {anyCause faults : Prop}

/-- What any operation can do, from an access to the host's inputs (R101, R102). -/
theorem runOp_allows (op : Op) (s : State) (hcsr : writesAnyCause op → anyCause) (hfault : mayFault op s → faults) :
    allows anyCause faults s (runOp op s) := by
  cases op with
  | access a =>
    exact runAccess_allows s (fun h => hcsr (access_writesAnyCause h)) fun h => hfault (access_mayFault h s)
  | phys dir pa sz v =>
    show allows _ _ s (runPhys dir pa sz v s)
    unfold runPhys
    split
    case h_1 hrouted =>
      exact runAccess_allows s (fun _ => hcsr (.inr (.inl ⟨dir, pa, sz, v, rfl⟩)))
        fun h => hfault (.inr (.inl ⟨dir, pa, sz, v, rfl, inWindow_of_routed hrouted h⟩))
    case h_2 => exact Changes.refl s
  | service d => exact runService_allows d s
  | reset d =>
    exact runReset_allows d s (fun h => hcsr (.inr (.inr (h ▸ rfl))))
      fun ⟨hd, hfree⟩ => hfault (.inr (.inr (.inl ⟨hd ▸ rfl, hfree⟩)))
  | fdcDrqAck => exact fdcDrqAck_changes s
  | fdcDataLate => exact fdcDataLate_changes s
  | nvLoad image =>
    have hload : faults := hfault (.inr (.inr (.inr (.inl ⟨image, rfl⟩))))
    show allows _ _ s (nvLoad image s)
    unfold nvLoad
    split
    · exact hload
    · split
      · exact hload
      · exact Changes.store s _ (.image image (by omega))
  | nvSave =>
    show allows _ _ s (nvSave s)
    unfold nvSave
    split
    · exact hfault (.inr (.inr (.inr (.inr rfl))))
    · exact Changes.answer s _
  | kbd c => exact Changes.inputs s _
  | input ready wp => exact Changes.inputs s _

/-! ## The step -/

theorem step_nil {s : State} (h : s.pending = []) : step s = .next s := by
  rw [step, h]

theorem step_cons {s : State} {op : Op} {rest : List Op} (h : s.pending = op :: rest) :
    step s = runOp op (s.start rest) := by
  rw [step, h]

/-- The issue of an operation is a single write like the others. -/
theorem allows_of_start {s : State} {rest : List Op} {r : Result} (h : allows anyCause faults (s.start rest) r) :
    allows anyCause faults s r := by
  cases r with
  | next t => exact Changes.trans (.start s rest) h
  | fault | refused => exact h

/-- What any step can do, by the oldest operation issued. -/
theorem step_allows (s : State) (hcsr : ∀ op, s.pending.head? = some op → writesAnyCause op → anyCause)
    (hfault : ∀ op, s.pending.head? = some op → mayFault op s → faults) :
    allows anyCause faults s (step s) := by
  cases hpending : s.pending with
  | nil =>
    rw [step_nil hpending]
    exact Changes.refl s
  | cons op rest =>
    have hhead : s.pending.head? = some op := by rw [hpending]; rfl
    rw [step_cons hpending]
    exact allows_of_start (runOp_allows op (s.start rest) (hcsr op hhead) (hfault op hhead))

/-- Every step that goes on is made of single writes; other causes than 2 and 3 only an operation of the CSR drives. -/
theorem step_changes {s t : State} (hcsr : ∀ op, s.pending.head? = some op → writesAnyCause op → anyCause)
    (h : step s = .next t) : Changes anyCause s t := by
  have hallows := step_allows (faults := True) s hcsr fun _ _ _ => trivial
  rw [h] at hallows
  exact hallows

end

/-! ## Faults (R310, R311) -/

theorem fatal_iff (f : Fault) : f.fatal = true ↔ f = .nvAlloc := by
  cases f <;> decide

theorem stepOn_of_notFatal {s : State} {f : Fault} (hstep : step s = .fault f) (hfatal : f.fatal = false) :
    stepOn s = .next s.afterFault := by
  simp [stepOn, hstep, hfatal]

/-- Settles O9: `step_allows` with the operation a step runs; a host stops where the fault is fatal. -/
theorem onlyTheStoreFaults : Obligations.OnlyTheStoreFaults := by
  intro s
  have hallows : allows True (∃ op, s.pending.head? = some op ∧ mayFault op s) s (step s) :=
    step_allows s (fun _ _ _ => trivial) fun op hhead hop => ⟨op, hhead, hop⟩
  refine ⟨fun r hstep => ?refused, fun f hstep => ?fault, fun f hstep => ?host⟩
  case refused => rw [hstep] at hallows; exact hallows
  case fault => rw [hstep] at hallows; exact hallows
  case host =>
    split
    case isTrue hf => exact stepOn_of_fatal hstep ((fatal_iff f).2 hf)
    case isFalse hf => exact stepOn_of_notFatal hstep (Bool.eq_false_iff.2 (mt (fatal_iff f).1 hf))

end Sys2Proof.Proofs
end

section
/-! PROOFS. What every step keeps. Each invariant is kept by the single writes of its device (`TmrWrite`, `UartWrite`,
`FdcWrite`, `NvWrite`), hence by `Changes`, hence by the step (`step_changes`). -/

namespace Sys2Proof.Proofs

open Sys2Proof.Machine Sys2Proof.Claims Sys2Proof.Laws

/-! ## From the writes of a device to the step -/

section
variable {anyCause : Prop} {s t : State}

theorem Changes.params (h : Changes anyCause s t) : t.params = s.params := by
  induction h with
  | trans _ _ ihst ihtu => rw [ihtu, ihst]
  | _ => rfl

theorem Changes.tmr_invariant {inv : Tmr → Prop} (hwrite : ∀ a b, TmrWrite a b → inv a → inv b)
    (h : Changes anyCause s t) (hs : inv s.tmr) : inv t.tmr := by
  induction h with
  | trans _ _ ihst ihtu => exact ihtu (ihst hs)
  | timer s b hw => exact hwrite _ b hw hs
  | _ => exact hs

theorem Changes.uart_invariant {inv : Uart → Prop} (hwrite : ∀ a b, UartWrite a b → inv a → inv b)
    (h : Changes anyCause s t) (hs : inv s.uart) : inv t.uart := by
  induction h with
  | trans _ _ ihst ihtu => exact ihtu (ihst hs)
  | uart s b hw => exact hwrite _ b hw hs
  | _ => exact hs

theorem Changes.fdc_invariant {lat : Nat} {inv : Fdc → Prop} (hwrite : ∀ f g, FdcWrite lat f g → inv f → inv g)
    (h : Changes anyCause s t) (hlat : s.params.fdcLatency = lat) (hs : inv s.fdc) : inv t.fdc := by
  induction h with
  | trans hst _ ihst ihtu => exact ihtu (by rw [hst.params, hlat]) (ihst hlat hs)
  | fdc s f hw => exact hwrite _ f (hlat ▸ hw) hs
  | _ => exact hs

theorem Changes.nv_invariant {size : Nat} {inv : Nv → Prop} (hwrite : ∀ a b, NvWrite size a b → inv a → inv b)
    (h : Changes anyCause s t) (hsize : s.params.nvramSize = size) (hs : inv s.nv) : inv t.nv := by
  induction h with
  | trans hst _ ihst ihtu => exact ihtu (by rw [hst.params, hsize]) (ihst hsize hs)
  | store s b hw => exact hwrite _ b (hsize ▸ hw) hs
  | _ => exact hs

theorem Changes.history (h : Changes anyCause s t) : ∃ evs, t.history = s.history ++ evs := by
  induction h with
  | trans _ _ ihst ihtu =>
    obtain ⟨before, hbefore⟩ := ihst
    obtain ⟨after, hafter⟩ := ihtu
    exact ⟨before ++ after, by rw [hafter, hbefore, List.append_assoc]⟩
  | emit s e => exact ⟨[e], rfl⟩
  | _ => exact ⟨[], (List.append_nil _).symm⟩

/-- Without a write of the CSR only causes 2 and 3 can differ (R123). -/
theorem Changes.otherCauses (h : Changes False s t) {k : Nat} (h2 : k ≠ 2) (h3 : k ≠ 3) :
    t.csr.bits.getLsbD k = s.csr.bits.getLsbD k := by
  induction h with
  | trans _ _ ihst ihtu => rw [ihtu, ihst]
  | cause s j b hj => exact setBit_other s.csr.bits j k b (by omega)
  | csr s c hf => exact hf.elim
  | _ => rfl

theorem changes_of_step (h : step s = .next t) : Changes True s t := step_changes (fun _ _ _ => trivial) h

end

/-- Settles O15: a step only appends to the history, and only an operation of the CSR writes its other causes. -/
theorem stepOnlyAddsHistoryAndDrivesTwoCauses : Obligations.StepOnlyAddsHistoryAndDrivesTwoCauses := by
  intro s t h
  refine ⟨(changes_of_step h).params, (changes_of_step h).history, fun hnot k h2 h3 => ?causes⟩
  case causes =>
    refine Changes.otherCauses (step_changes (fun op hhead hop => ?_) h) h2 h3
    obtain ⟨hcsr, hphys, hreset⟩ := hnot op hhead
    rcases hop with ⟨sel, sz, v, hop⟩ | ⟨dir, pa, sz, v, hop⟩ | hop
    · exact hcsr sel sz v hop
    · exact hphys dir pa sz v hop
    · exact hreset hop

/-! ## The timer -/

theorem load_inv (d : Half) : (TmrChannel.load d).inv := ⟨Nat.le_refl _, id⟩

/-- A tick reloads the divider or takes one from a count of at least 2. -/
theorem tick_inv {c : TmrChannel} (h : c.inv) : c.tick.inv := by
  obtain ⟨hle, -⟩ := h
  obtain ⟨hdivider, hcounter⟩ := c.tick_spec
  have hzero : ∀ v : Half, v = 0 ↔ v.toNat = 0 := fun v => BitVec.toNat_eq.trans Iff.rfl
  rw [TmrChannel.inv, hzero, hzero, hdivider, hcounter]
  split <;> omega

theorem tmrReset_inv : ∀ c, (chan Tmr.reset c).inv
  | 0 | 1 | 2 => load_inv 0

theorem tmrWrite_inv (a b : Tmr) (h : TmrWrite a b) (ha : ∀ c, (chan a c).inv) : ∀ c, (chan b c).inv := by
  intro c
  cases h with
  | load i d =>
    by_cases hc : c = i
    · rw [hc, chan_withChan_same]; exact load_inv d
    · rw [chan_withChan_other a _ hc]; exact ha c
  | tick => rw [chan_tick]; exact tick_inv (ha c)
  | reset => exact tmrReset_inv c

/-- Settles O20: `tmrWrite_inv` for the step's writes of the timer. -/
theorem stepKeepsTimerCountsBounded : Obligations.StepKeepsTimerCountsBounded :=
  fun _ _ hs h => (changes_of_step h).tmr_invariant tmrWrite_inv hs

/-! ## The UART -/

theorem eq_other_of_ne {p r : Port} (h : r ≠ p) : r = other p := by
  match p, r with
  | .a, .b | .b, .a => rfl
  | .a, .a | .b, .b => exact absurd rfl h

/-- A write of a port that keeps its status and its enable keeps those of both ports. -/
theorem setPort_status_txEn {u : Uart} {p : Port} {q : UartPort} (hstatus : q.status = (u.port p).status)
    (hen : q.txEn = (u.port p).txEn) (r : Port) :
    ((u.setPort p q).port r).status = (u.port r).status ∧ ((u.setPort p q).port r).txEn = (u.port r).txEn := by
  by_cases hr : r = p
  · rw [hr, Uart.port_setPort_same]; exact ⟨hstatus, hen⟩
  · rw [Uart.port_setPort_other u p r q hr]; exact ⟨rfl, rfl⟩

/-! ### The transmit bits (R30) -/

theorem txInv_iff (u : Uart) :
    u.txInv ↔ ∀ p, (u.port p).status.getLsbD 2 = (u.port p).txEn ∧ (u.port p).status.getLsbD 3 = (u.port p).txEn ∧
      u.istat.getLsbD (txBit p) = (u.port p).txEn := by
  constructor
  · rintro ⟨hstatus, ha, hb⟩ p
    obtain ⟨htxr, htxe⟩ := hstatus p
    cases p with
    | a => exact ⟨htxr, htxe, ha⟩
    | b => exact ⟨htxr, htxe, hb⟩
  · intro h
    obtain ⟨-, -, ha⟩ := h .a
    obtain ⟨-, -, hb⟩ := h .b
    refine ⟨fun p => ?_, ha, hb⟩
    obtain ⟨htxr, htxe, -⟩ := h p
    exact ⟨htxr, htxe⟩

/-- The transmit update brings the invariant about, whatever held before (R162). -/
theorem txInv_txStatus (u : Uart) : u.txStatus.txInv := by
  rw [txInv_iff]
  intro p
  rw [Uart.txStatus_port, UartPort.txStatus_getLsbD _ 2 (by decide), UartPort.txStatus_getLsbD _ 3 (by decide)]
  refine ⟨rfl, rfl, ?_⟩
  cases p with
  | a => exact Uart.txStatus_istat u 0 (by decide)
  | b => exact Uart.txStatus_istat u 4 (by decide)

theorem txInv_reset : Uart.reset.txInv := ⟨fun p => by cases p <;> exact ⟨rfl, rfl⟩, rfl, rfl⟩

theorem setRx_status_getLsbD (u : Uart) (p r : Port) (b : Bool) {j : Nat} (hj : j ≠ 0) :
    ((u.setRx p b).port r).status.getLsbD j = (u.port r).status.getLsbD j := by
  by_cases hr : r = p
  · rw [hr, Uart.setRx_port_same]; exact setBit_other _ _ _ _ (Ne.symm hj)
  · rw [Uart.setRx_port_other u p r b hr]

theorem setRx_txEn (u : Uart) (p r : Port) (b : Bool) : ((u.setRx p b).port r).txEn = (u.port r).txEn := by
  cases p <;> cases r <;> rfl

theorem uartWrite_txInv (u w : Uart) (h : UartWrite u w) (hu : u.txInv) : w.txInv := by
  induction h with
  | trans _ _ ihuv ihvw => exact ihvw (ihuv hu)
  | transmit u => exact txInv_txStatus u
  | command u p b m => exact txInv_txStatus _
  | refl | shared => exact hu
  | reset => exact txInv_reset
  | port u p q hstatus hen =>
    rw [txInv_iff] at hu ⊢
    intro r
    obtain ⟨hst, hen⟩ := setPort_status_txEn hstatus hen r
    rw [hst, hen, Uart.setPort_istat]
    exact hu r
  | cri u b =>
    rw [txInv_iff] at hu ⊢
    intro r
    have hbit : (setBit u.istat criBit b).getLsbD (txBit r) = u.istat.getLsbD (txBit r) :=
      setBit_other _ _ _ _ (by cases r <;> decide)
    rw [hbit]
    exact hu r
  | receive u p b =>
    rw [txInv_iff] at hu ⊢
    intro r
    have hbit : (u.setRx p b).istat.getLsbD (txBit r) = u.istat.getLsbD (txBit r) :=
      setBit_other _ _ _ _ (by cases p <;> cases r <;> decide)
    rw [hbit, setRx_txEn, setRx_status_getLsbD u p r b (by decide), setRx_status_getLsbD u p r b (by decide)]
    exact hu r

/-! ### The receive bits (R26) -/

theorem rxBit_ne {p r : Port} (h : r ≠ p) : rxBit r ≠ rxBit p := by
  rw [eq_other_of_ne h]
  cases p <;> decide

theorem rxInv_setRx {u : Uart} (hu : u.rxInv) (p : Port) (b : Bool) : (u.setRx p b).rxInv := by
  intro r
  rw [Uart.setRx_istat]
  by_cases hr : r = p
  · have hlt : rxBit p < 8 := by cases p <;> decide
    rw [hr, Uart.setRx_port_same, setBit_same _ _ _ hlt]
    exact (setBit_same _ _ _ (by decide)).symm
  · rw [Uart.setRx_port_other u p r b hr, setBit_other _ _ _ _ (rxBit_ne hr).symm]
    exact hu r

theorem rxInv_txStatus {u : Uart} (hu : u.rxInv) : u.txStatus.rxInv := by
  intro r
  have hbit : u.txStatus.istat.getLsbD (rxBit r) = u.istat.getLsbD (rxBit r) := by
    cases r with
    | a => exact Uart.txStatus_istat u 1 (by decide)
    | b => exact Uart.txStatus_istat u 5 (by decide)
  rw [hbit, Uart.txStatus_port]
  exact (hu r).trans (UartPort.txStatus_getLsbD _ 0 (by decide)).symm

/-- DIS_RX clears RXR and the istat bit of its port; no other misc command touches either (R172). -/
theorem rxInv_commanded {u : Uart} (hu : u.rxInv) (p : Port) (b : Byte) (m : BitVec 3) : (commanded p b m u).rxInv := by
  intro r
  rw [commanded_istat_getLsbD]
  by_cases hr : r = p
  · have hrxr := miscStatus_getLsbD m.toNat (u.port p).status 0 (by decide)
    rw [hr, commanded_port, rxrBit, hrxr, hu p]
    by_cases hm : m.toNat = 2
    · simp [hm]
    · simp [hm, rxrBit]
  · rw [if_neg fun h => rxBit_ne hr h.2, eq_other_of_ne hr, commanded_other]
    exact hu (other p)

theorem rxInv_reset : Uart.reset.rxInv := fun p => by cases p <;> rfl

theorem uartWrite_rxInv (u w : Uart) (h : UartWrite u w) (hu : u.rxInv) : w.rxInv := by
  induction h with
  | trans _ _ ihuv ihvw => exact ihvw (ihuv hu)
  | transmit u => exact rxInv_txStatus hu
  | command u p b m => exact rxInv_txStatus (rxInv_commanded hu p b m)
  | receive u p b => exact rxInv_setRx hu p b
  | refl | shared => exact hu
  | reset => exact rxInv_reset
  | port u p q hstatus hen =>
    intro r
    obtain ⟨hst, -⟩ := setPort_status_txEn hstatus hen r
    rw [hst, Uart.setPort_istat]
    exact hu r
  | cri u b =>
    intro r
    have hbit : (setBit u.istat criBit b).getLsbD (rxBit r) = u.istat.getLsbD (rxBit r) :=
      setBit_other _ _ _ _ (by cases r <;> decide)
    exact hbit.trans (hu r)

/-! ### The bits that nothing sets (R213) -/

/-- Bits outside a mask may be written, bits inside it cleared. -/
theorem and_setBit_eq_zero {n : Nat} {v mask : BitVec n} {i : Nat} {b : Bool} (h : v &&& mask = 0)
    (hi : mask.getLsbD i = false ∨ b = false) : setBit v i b &&& mask = 0 := by
  apply BitVec.eq_of_getLsbD_eq
  intro j hj
  have hv : (v.getLsbD j && mask.getLsbD j) = false := by
    rw [← BitVec.getLsbD_and, h]; exact BitVec.getLsbD_zero
  rw [BitVec.getLsbD_and, isWithBit_setBit v i b j hj]
  split
  case isTrue hji => rcases hi with hi | hi <;> simp [hji, hi]
  case isFalse => simpa using hv

theorem and_miscStatus_eq_zero {status mask : Byte} (h : status &&& mask = 0) (m : Nat) :
    miscStatus m status &&& mask = 0 := by
  unfold miscStatus
  split
  · exact and_setBit_eq_zero h (.inr rfl)
  · split
    · exact and_setBit_eq_zero h (.inr rfl)
    · split
      · exact and_setBit_eq_zero (and_setBit_eq_zero (and_setBit_eq_zero h (.inr rfl)) (.inr rfl)) (.inr rfl)
      · exact h

theorem unsetInv_txStatus {u : Uart} (hu : u.unsetInv) : u.txStatus.unsetInv := by
  obtain ⟨hstatus, histat⟩ := hu
  refine ⟨fun p => ?_, and_setBit_eq_zero (and_setBit_eq_zero histat (.inl (by decide))) (.inl (by decide))⟩
  rw [Uart.txStatus_port]
  exact and_setBit_eq_zero (and_setBit_eq_zero (hstatus p) (.inl (by decide))) (.inl (by decide))

theorem unsetInv_commanded {u : Uart} (hu : u.unsetInv) (p : Port) (b : Byte) (m : BitVec 3) :
    (commanded p b m u).unsetInv := by
  obtain ⟨hstatus, histat⟩ := hu
  refine ⟨fun r => ?status, ?istat⟩
  case status =>
    by_cases hr : r = p
    · rw [hr, commanded_port]; exact and_miscStatus_eq_zero (hstatus p) m.toNat
    · rw [eq_other_of_ne hr, commanded_other]; exact hstatus (other p)
  case istat =>
    rw [commanded, misc_eq, Uart.setPort_istat]
    dsimp only
    split
    · exact and_setBit_eq_zero histat (.inr rfl)
    · exact histat

theorem unsetInv_reset : Uart.reset.unsetInv := ⟨fun p => by cases p <;> rfl, rfl⟩

theorem uartWrite_unsetInv (u w : Uart) (h : UartWrite u w) (hu : u.unsetInv) : w.unsetInv := by
  induction h with
  | trans _ _ ihuv ihvw => exact ihvw (ihuv hu)
  | transmit u => exact unsetInv_txStatus hu
  | command u p b m => exact unsetInv_txStatus (unsetInv_commanded hu p b m)
  | refl | shared => exact hu
  | reset => exact unsetInv_reset
  | port u p q hstatus hen =>
    obtain ⟨hclear, histat⟩ := hu
    refine ⟨fun r => ?_, by rwa [Uart.setPort_istat]⟩
    obtain ⟨hst, -⟩ := setPort_status_txEn hstatus hen r
    rw [hst]
    exact hclear r
  | cri u b =>
    obtain ⟨hclear, histat⟩ := hu
    exact ⟨hclear, and_setBit_eq_zero histat (.inl (by decide))⟩
  | receive u p b =>
    obtain ⟨hclear, histat⟩ := hu
    refine ⟨fun r => ?_, and_setBit_eq_zero histat (.inl (by cases p <;> decide))⟩
    by_cases hr : r = p
    · rw [hr, Uart.setRx_port_same]; exact and_setBit_eq_zero (hclear p) (.inl (by decide))
    · rw [Uart.setRx_port_other u p r b hr]; exact hclear r

/-- Settles O34: each of the three for the step's writes of the UART. -/
theorem stepKeepsUartInvariants : Obligations.StepKeepsUartInvariants := fun _ _ h =>
  have hchanges := changes_of_step h
  ⟨hchanges.uart_invariant uartWrite_txInv, hchanges.uart_invariant uartWrite_rxInv,
    hchanges.uart_invariant uartWrite_unsetInv⟩

/-! ## The floppy controller -/

/-- The invariants of a controller at rest. -/
theorem inv_of_idle {f : Fdc} (lat : Nat) (hphase : f.phase = .idle) (hbusy : f.busy = false) (hdrq : f.drq = false)
    (hxfer : f.xfer = none) (hhead : f.physTrack < Config.fdcTracks) (hclass : f.cmdType = fdcClass f.cmd) :
    f.inv lat := by
  unfold Fdc.inv
  rw [hphase, hbusy, hdrq, hxfer]
  exact ⟨by decide, by decide, by decide, fun n h => Phase.noConfusion h, hhead, hclass, fun h => absurd rfl h,
    fun h => Phase.noConfusion h⟩

/-- The invariants of a controller with n ticks to an execution. -/
theorem inv_of_exec {f : Fdc} {lat n : Nat} (hphase : f.phase = .exec n) (hpos : 1 ≤ n) (hle : n ≤ lat)
    (hbusy : f.busy = true) (hdrq : f.drq = false) (hxfer : f.xfer = none) (hhead : f.physTrack < Config.fdcTracks)
    (hclass : f.cmdType = fdcClass f.cmd) (htype : f.cmdType ≠ .typeIV) : f.inv lat := by
  unfold Fdc.inv
  rw [hphase, hbusy, hdrq, hxfer]
  refine ⟨by simp, by simp, by simp, fun m h => ?_, hhead, hclass, fun _ => htype, fun h => Phase.noConfusion h⟩
  cases h
  exact ⟨hpos, hle⟩

/-- Under the invariants a controller that does not wait for DRQ has none, and no descriptor. -/
theorem drq_xfer_of_inv {f : Fdc} {lat : Nat} (hf : f.inv lat) (h : f.phase ≠ .waitDrq) :
    f.drq = false ∧ f.xfer = none := by
  obtain ⟨-, hdrq, hxfer, -⟩ := hf
  exact ⟨Bool.eq_false_iff.2 (mt hdrq.1 h), not_not.1 (mt hxfer.1 h)⟩

theorem fdcReset_inv (lat : Nat) : Fdc.reset.inv lat := inv_of_idle lat rfl rfl rfl rfl (by decide) (by decide)

theorem fdcWrite_inv {lat : Nat} (hlat : 1 ≤ lat) (f g : Fdc) (h : FdcWrite lat f g) (hf : f.inv lat) : g.inv lat := by
  induction h with
  | trans _ _ ihfg ihgh => exact ihgh (ihfg hf)
  | registers => exact hf
  | head f n hn =>
    obtain ⟨hbusy, hdrq, hxfer, hexec, -, hrest⟩ := hf
    exact ⟨hbusy, hdrq, hxfer, hexec, hn, hrest⟩
  | accept f b hclass =>
    obtain ⟨-, -, -, -, hhead, -⟩ := hf
    exact inv_of_exec rfl hlat (Nat.le_refl lat) (by decide : fdcBusyStatus.getLsbD 0 = true) rfl rfl hhead rfl hclass
  | force f b hclass =>
    obtain ⟨-, -, -, -, hhead, -⟩ := hf
    exact inv_of_idle lat rfl (by decide : (0x00 : Byte).getLsbD 0 = false) rfl rfl hhead hclass.symm
  | countdown f n hphase hn =>
    obtain ⟨hdrq, hxfer⟩ := drq_xfer_of_inv hf (by rw [hphase]; exact fun h => Phase.noConfusion h)
    obtain ⟨hbusy, -, -, hexec, hhead, hclass, htype, -⟩ := hf
    have hrunning : f.phase ≠ .idle := by rw [hphase]; exact fun h => Phase.noConfusion h
    obtain ⟨-, hle⟩ := hexec n hphase
    exact inv_of_exec (n := n - 1) rfl (by omega) (by omega) (hbusy.2 hrunning) hdrq hxfer hhead hclass (htype hrunning)
  | publish f x hphase hpublish =>
    obtain ⟨hbusy, -, -, -, hhead, hclass, htype, -⟩ := hf
    exact ⟨⟨fun _ h => Phase.noConfusion h, fun _ => hbusy.2 hphase⟩, iff_of_true rfl rfl,
      iff_of_true (Option.some_ne_none x) rfl, fun n h => Phase.noConfusion h, hhead, hclass, fun _ => htype hphase,
      fun _ => hpublish hclass⟩
  | finish f st hst =>
    obtain ⟨-, -, -, -, hhead, hclass, -⟩ := hf
    exact inv_of_idle lat rfl hst rfl rfl hhead hclass
  | reset => exact fdcReset_inv lat

/-- Settles O48: `fdcWrite_inv` for the step's writes of the controller, with the latency no step changes. -/
theorem stepKeepsFdcInvariants : Obligations.StepKeepsFdcInvariants := by
  intro s t hs h
  have hchanges := changes_of_step h
  rw [hchanges.params]
  exact hchanges.fdc_invariant (fdcWrite_inv (Nat.succ_pos _)) rfl hs

/-! ## The store -/

/-- Contents in canonical form that lie in a store of `size` bytes. -/
def contentsIn (size : Nat) (nv : Nv) : Prop := nv.bytes.wf ∧ ∀ c ∈ nv.bytes, c.1 < size

theorem contentsIn_reset (size : Nat) : contentsIn size .reset :=
  ⟨Memory.wf_nil, fun _ hc => absurd hc List.not_mem_nil⟩

theorem nvWrite_contentsIn (size : Nat) (a b : Nv) (h : NvWrite size a b) (ha : contentsIn size a) :
    contentsIn size b := by
  obtain ⟨hwf, hin⟩ := ha
  cases h with
  | bytes o n v hrange =>
    refine ⟨nvWrite_wf _ o n v hwf, fun c hc => ?_⟩
    rcases nvWrite_mem _ o n v c hc with hold | ⟨-, hnew⟩
    · exact hin c hold
    · exact Nat.lt_of_lt_of_le hnew hrange
  | image bs hlen =>
    obtain ⟨hwf, hbounds⟩ := Memory.ofImage_wf 0 bs
    refine ⟨hwf, fun c hc => ?_⟩
    obtain ⟨-, hlt⟩ := hbounds c hc
    rwa [hlen, Nat.zero_add] at hlt
  | allocate => exact contentsIn_reset size

theorem nvWrite_allocated (size : Nat) (a b : Nv) (h : NvWrite size a b) (ha : a.allocated = true) :
    b.allocated = true := by
  cases h with
  | bytes | image => exact ha
  | allocate => rfl

/-- Settles O54: both facts for the step's writes of the store, with the size no step changes. -/
theorem stepKeepsMemoryCanonical : Obligations.StepKeepsMemoryCanonical := by
  intro s t hs h
  have hchanges := changes_of_step h
  refine ⟨?contents, hchanges.nv_invariant (nvWrite_allocated _) rfl⟩
  rw [State.memInv, hchanges.params]
  exact hchanges.nv_invariant (nvWrite_contentsIn _) rfl hs

/-! ## The reset state (R40) -/

/-- Settles O60: every bit and count of the reset state is 0, the controller is at rest and the store lists nothing. -/
theorem resetMeetsTheInvariants : Obligations.ResetMeetsTheInvariants := by
  intro p
  exact ⟨txInv_reset, rxInv_reset, unsetInv_reset, tmrReset_inv, fdcReset_inv _, contentsIn_reset _⟩

end Sys2Proof.Proofs
end

section
/-! PROOFS. Accesses as steps (R2, R70, R83, R84), the host's inputs (R102, R262), and the runs a write starts: a CSR cause
or a mode register written and read back, the timer's period (R147). -/

namespace Sys2Proof.Proofs

open Sys2Proof.Machine Sys2Proof.Claims Sys2Proof.Laws

/-! ## The access at the head of the queue -/

theorem step_access {s : State} {a : Access} {rest : List Op} (h : s.pending = .access a :: rest) :
    step s = runAccess a (s.start rest) := step_cons h

theorem runAccess_of_instr {a : Access} {i : Instr} (hdec : decode (issuedAccess a) = .instr i) (s : State) :
    runAccess a s = exec i s := by
  rw [runAccess, hdec]

theorem runAccess_of_rejected {a : Access} {e : DecodeError} (hdec : decode (issuedAccess a) = .rejected e) (s : State) :
    runAccess a s = .next (unmapped a s) := by
  rw [runAccess, hdec]

/-- A bus access that decodes to i, as a step. -/
theorem step_bus {s : State} {dev : RegDevice} {sel : Byte} {sz : AccSize} {v : Word} {rest : List Op} {i : Instr}
    (h : s.pending = .access (.bus dev sel sz v) :: rest) (hdec : decode (.bus dev sel sz v) = .instr i) :
    step s = exec i (s.start rest) :=
  (step_access h).trans (runAccess_of_instr (a := .bus dev sel sz v) hdec _)

theorem issuedAccess_of_ne {a : Access} (h : ∀ b, a ≠ .fdcCmd b) : issuedAccess a = a := by
  cases a with
  | fdcCmd b => exact absurd rfl (h b)
  | bus | nv | uartCmd => rfl

/-- A floppy command byte issued is the write of it at offset 0 (R97). -/
theorem decode_issued_fdcCmd (b : Byte) : decode (issuedAccess (.fdcCmd b)) = .instr (.fdcWrCmd .w8 (b.setWidth 32)) :=
  RoundTrip.fdcWrCmd .w8 (b.setWidth 32) (by
    have hb : (b.setWidth 32 : Word).toNat < 2 ^ 8 := by
      rw [BitVec.toNat_setWidth]; exact Nat.lt_of_le_of_lt (Nat.mod_le _ _) b.isLt
    exact decide_eq_true hb)

/-- Settles O5: the step of an access is `runAccess`, which decodes and executes. -/
theorem stepRunsTheDecodedAccess : Obligations.StepRunsTheDecodedAccess := by
  intro s a rest i
  refine ⟨fun hpending hnot hdec => ?access, fun b hpending => ?commandByte, step_nil⟩
  case access =>
    rw [← issuedAccess_of_ne hnot] at hdec
    exact (step_access hpending).trans (runAccess_of_instr hdec _)
  case commandByte => exact (step_access hpending).trans (runAccess_of_instr (decode_issued_fdcCmd b) _)

/-- Settles O7: a rejected access is `unmapped`, which answers 0 to a read and is nothing else. -/
theorem accessOutsideTheWindowDoesNothing : Obligations.AccessOutsideTheWindowDoesNothing := by
  intro s dev sel sz v e rest hpending hdec
  rw [step_access hpending, runAccess_of_rejected (a := .bus dev sel sz v) hdec, unmapped]
  split
  · exact ⟨_, rfl, rfl, rfl⟩
  · exact ⟨_, rfl, rfl, answers_answerRead _ sz (0 : Byte) (by decide)⟩

/-! ## The host's inputs -/

/-- Settles O56: either operation replaces the inputs of the state it starts from. -/
theorem hostInputsChangeOnlyInputs : Obligations.HostInputsChangeOnlyInputs := by
  intro s rest ready wp c
  exact ⟨fun h => step_cons h, fun h => step_cons h⟩

/-! ## The router (R70) -/

theorem route_of_only {p : Config.Params} {pa : Nat} {dev : Device} (h : ∀ d, inWindow p d pa = true ↔ d = dev) :
    route p pa = some dev := by
  have hwindow : (inWindow p · pa) = fun d => decide (d = dev) :=
    funext fun d => by rw [Bool.eq_iff_iff, decide_eq_true_eq]; exact h d
  rw [route, hwindow]
  cases dev <;> rfl

theorem route_of_none {p : Config.Params} {pa : Nat} (h : ∀ d, inWindow p d pa = false) : route p pa = none :=
  List.find?_eq_none.2 fun d _ => Bool.eq_false_iff.1 (h d)

/-- A selector is the direction bit over an offset of 7 bits (R90). -/
theorem selector_toNat (dir : AccessDir) {off : Nat} (h : off < 128) :
    (selector dir off).toNat = (if dir = .write then 128 else 0) + off := by
  have happend : ∀ top : BitVec 1, (top ++ BitVec.ofNat 7 off : Byte).toNat = 128 * top.toNat + off := by
    intro top
    rw [BitVec.toNat_append, ← Nat.shiftLeft_add_eq_or_of_lt (BitVec.isLt _), Nat.shiftLeft_eq, BitVec.toNat_ofNat,
      Nat.mod_eq_of_lt h, Nat.mul_comm]
  cases dir with
  | read => exact happend 0
  | write => exact happend 1

/-- An address routed to a register device makes the device's access at the offset from its base. -/
theorem routedAccess_register {p : Config.Params} {pa : Nat} {dev : Device} {rd : RegDevice}
    (hmem : (dev, rd) ∈ [(Device.csr, RegDevice.csr), (.tmr, .tmr), (.uart, .uart), (.fdc, .fdc)])
    (hroute : route p pa = some dev) (dir : AccessDir) (sz : AccSize) (v : Word) :
    routedAccess p dir pa sz v = some (.bus rd (selector dir (pa - windowBase p dev)) sz v) := by
  simp only [List.mem_cons, Prod.mk.injEq, List.not_mem_nil, or_false] at hmem
  rcases hmem with ⟨rfl, rfl⟩ | ⟨rfl, rfl⟩ | ⟨rfl, rfl⟩ | ⟨rfl, rfl⟩ <;> rw [routedAccess, hroute] <;> rfl

/-- A register device's window has at most the 128 offsets of a selector (R71, R90). -/
theorem windowSize_register_le {dev : Device} (hdev : dev ≠ .nv) (p : Config.Params) : windowSize p dev ≤ 128 := by
  cases dev with
  | csr => exact Nat.le_refl 128
  | tmr | fdc => exact (by decide : 4 ≤ 128)
  | uart => exact (by decide : 16 ≤ 128)
  | nv => exact absurd rfl hdev

theorem offset_lt_of_inWindow {p : Config.Params} {d : Device} {pa : Nat} (h : inWindow p d pa = true) :
    pa - windowBase p d < windowSize p d := by
  have hbounds := of_decide_eq_true h
  omega

/-- An access at a physical address that the router makes into a is, as a step, the access a. -/
theorem step_phys_of_routed {s : State} {dir : AccessDir} {pa : Nat} {sz : AccSize} {v : Word} {rest : List Op}
    {a : Access} (hpending : s.pending = .phys dir pa sz v :: rest)
    (hrouted : routedAccess s.params dir pa sz v = some a) :
    step s = step { s with pending := .access a :: rest } := by
  rw [step_cons hpending, step_access (a := a) (rest := rest) rfl]
  show runPhys dir pa sz v (s.start rest) = _
  rw [runPhys, State.start_params, hrouted]
  rfl

/-- Settles O8: where one window alone holds the address the router finds its device, and its offset fits a selector. -/
theorem physicalAccessIsRouted : Obligations.PhysicalAccessIsRouted := by
  intro s dir pa sz v rest hpending
  refine ⟨fun dev rd honly hmem => ?register, fun honly => ?store, fun hnone => ?nothing⟩
  case register =>
    have hdev : dev ≠ .nv := by rintro rfl; revert hmem; cases rd <;> decide
    have hoff : pa - windowBase s.params dev < 128 :=
      Nat.lt_of_lt_of_le (offset_lt_of_inWindow ((honly dev).2 rfl)) (windowSize_register_le hdev s.params)
    exact ⟨_, selector_toNat dir hoff,
      step_phys_of_routed hpending (routedAccess_register hmem (route_of_only honly) dir sz v)⟩
  case store =>
    have hrouted : routedAccess s.params dir pa sz v = some (.nv (selector dir 0) (pa - s.params.nvramBase) sz v) := by
      rw [routedAccess, route_of_only honly]
    exact ⟨_, selector_toNat dir (by decide), step_phys_of_routed hpending hrouted⟩
  case nothing =>
    have hrouted : routedAccess s.params dir pa sz v = none := by rw [routedAccess, route_of_none hnone]
    rw [step_cons hpending]
    show runPhys dir pa sz v (s.start rest) = _
    rw [runPhys, State.start_params, hrouted]
    rfl

/-! ## Writes of any value (log 10) -/

/-- The decoder cuts a written value to its size, so a row decodes from a wider value as from the cut one. -/
theorem decode_of_writeDecodes_keep {dev : RegDevice} {sel : Nat} {sz : AccSize} {v : Word} {op : Word → Instr}
    (h : writeDecodes dev sel sz (sz.keep v) op) :
    decode (.bus dev (BitVec.ofNat 8 sel) sz v) = .instr (op (sz.keep v)) := by
  have hfits := keep_fits sz v
  rw [← h (of_decide_eq_true hfits)]
  simp only [decode, keep_of_fits sz _ hfits]

/-! ## A cause written and read back (E1) -/

/-- A step that leaves cause k at b, and then a read of the cause. -/
theorem run_csrRead_after {s u : State} {k : BitVec 4} {w b : Bool} {sz : AccSize} {rest : List Op}
    (hfirst : step s = .next u)
    (hpending : u.pending = .access (.bus .csr (BitVec.ofNat 8 (64 * w.toNat + 4 * k.toNat + 3)) sz 0) :: rest)
    (hbit : u.csr.bits.getLsbD k.toNat = b) :
    ∃ t, Sys2Proof.core.run 2 s = .next t ∧ answers t sz b.toNat ∧ t.pending = rest := by
  have hread := step_bus hpending (csrRd_readDecodes w k sz 0)
  rw [exec_csrRd, State.start_csr, hbit] at hread
  refine ⟨_, (run_succ 1 s u hfirst).trans ((run_one u).trans hread), ?_, rfl⟩
  have hvalue : (BitVec.ofBool b).toNat = b.toNat := BitVec.toNat_ofBool b
  rw [← hvalue]
  exact answers_answerRead _ sz _ (by decide)

/-- Settles O12: the write leaves its cause 1 or 0, whatever the payload is cut to. -/
theorem csrSetOrClearThenReadBack : Obligations.CsrSetOrClearThenReadBack := by
  intro s k w wsz rsz v rest
  have hk : (BitVec.ofFin k : BitVec 4).toNat < 16 := k.isLt
  refine ⟨fun hpending => ?set, fun hpending => ?clear⟩
  case set =>
    have hwrite := step_bus hpending (decode_of_writeDecodes_keep (csrSet_writeDecodes (.ofFin k) wsz _))
    exact run_csrRead_after (k := .ofFin k) hwrite rfl (setBit_same s.csr.bits _ true hk)
  case clear =>
    have hwrite := step_bus hpending (decode_of_writeDecodes_keep (csrClr_writeDecodes (.ofFin k) wsz _))
    exact run_csrRead_after (k := .ofFin k) hwrite rfl (setBit_same s.csr.bits _ false hk)

/-! ## The timer's period (R147) -/

/-- n timer ticks tick each channel n times. -/
theorem run_timerTicks (n : Nat) {s : State} {rest : List Op}
    (h : s.pending = List.replicate n (.service .tmr) ++ rest) :
    ∃ t, Sys2Proof.core.run n s = .next t ∧ t.pending = rest ∧
      ∀ c, chan t.tmr c = TmrChannel.tick^[n] (chan s.tmr c) := by
  induction n generalizing s with
  | zero => exact ⟨s, rfl, h, fun _ => rfl⟩
  | succ n ih =>
    have hfirst := step_serviceTmr (rest := List.replicate n (.service .tmr) ++ rest) h
    obtain ⟨t, hrun, hpending, hchan⟩ := ih (s := (s.start _).withTmr s.tmr.tick) rfl
    refine ⟨t, by rw [run_succ n _ _ hfirst, hrun], hpending, fun c => ?_⟩
    rw [hchan, State.withTmr_tmr, chan_tick, Function.iterate_succ_apply]

/-- The count n + 1 ticks after a load, from the count n ticks after it. -/
theorem period_succ {d : Nat} (hd : 0 < d) (n : Nat) :
    (if d - n % d ≤ 1 then d else d - n % d - 1) = d - (n + 1) % d := by
  have hlt : n % d < d := Nat.mod_lt n hd
  rw [← Nat.mod_add_mod]
  by_cases hlast : n % d + 1 = d
  · rw [hlast, Nat.mod_self, if_pos (by omega), Nat.sub_zero]
  · rw [Nat.mod_eq_of_lt (by omega : n % d + 1 < d), if_neg (by omega), Nat.sub_sub]

/-- The count n ticks after a load of d. -/
theorem iterate_tick_load (d : Half) (n : Nat) :
    (TmrChannel.tick^[n] (.load d)).divider = d ∧
      (TmrChannel.tick^[n] (.load d)).counter.toNat = if d.toNat = 0 then 0 else d.toNat - n % d.toNat := by
  induction n with
  | zero =>
    refine ⟨rfl, ?_⟩
    show d.toNat = _
    split <;> simp_all
  | succ n ih =>
    obtain ⟨hdivider, hcounter⟩ := ih
    rw [Function.iterate_succ_apply']
    obtain ⟨htickDivider, htickCounter⟩ := TmrChannel.tick_spec (TmrChannel.tick^[n] (.load d))
    refine ⟨by rw [htickDivider, hdivider], ?_⟩
    rw [htickCounter, hdivider, hcounter]
    by_cases hd : d.toNat = 0
    · simp [hd]
    · rw [if_neg hd, if_neg hd]
      exact period_succ (Nat.pos_of_ne_zero hd) n

/-- Settles O19: the load, then n ticks of the channel it loaded. -/
theorem timerPeriodLaw : Obligations.TimerPeriodLaw := by
  intro s c sz v n rest hpending
  have hload := step_bus hpending (decode_of_writeDecodes_keep (tmrLoadOp_writeDecodes c sz _))
  rw [exec_tmrLoadOp] at hload
  obtain ⟨t, hrun, hrest, hchan⟩ := run_timerTicks n (rest := rest) (s := (s.start _).withTmr _) rfl
  refine ⟨t, by rw [run_succ n s _ hload, hrun], hrest, ?_⟩
  have hstored : (writtenHalf sz (sz.keep v)).toNat = v.toNat % 2 ^ sz.bits % 65536 := by
    rw [writtenHalf_toNat, keep_toNat, Nat.mod_mod]
  obtain ⟨-, hcounter⟩ := iterate_tick_load (writtenHalf sz (sz.keep v)) n
  rw [hchan, State.withTmr_tmr, chan_withChan_same, hcounter, hstored]

end Sys2Proof.Proofs
end

section
/-! PROOFS. Two laws of the UART over several operations: the mode registers written and read back (R163), and the
enabled counter's way to its expiry (R210). -/

namespace Sys2Proof.Proofs

open Sys2Proof.Machine Sys2Proof.Claims Sys2Proof.Laws

/-! ## The mode registers in turn (E3) -/

/-- Two stores from cursor 0 fill both registers and bring the cursor back to 0. -/
theorem storeMode_twice {q : UartPort} (h : q.modePtr = 0) (x y : Byte) :
    ((q.storeMode x).cycleMode.storeMode y).cycleMode = { q with mode0 := x, mode1 := y } := by
  simp [UartPort.storeMode, UartPort.cycleMode, h]

theorem cycleMode_twice (q : UartPort) : q.cycleMode.cycleMode = q := by
  have back : ∀ c : BitVec 1, 1 - (1 - c) = c := by decide
  simp only [UartPort.cycleMode, back]

theorem modeReg_of_zero {q : UartPort} (h : q.modePtr = 0) : q.modeReg = q.mode0 := if_pos h

theorem modeReg_cycleMode_of_zero {q : UartPort} (h : q.modePtr = 0) : q.cycleMode.modeReg = q.mode1 := by
  simp [UartPort.modeReg, UartPort.cycleMode, h]

theorem modeRead_port (p : Port) (sz : AccSize) (s : State) :
    (modeRead p sz s).uart.port p = (s.uart.port p).cycleMode := Uart.port_setPort_same _ p _

theorem modeWrite_port (p : Port) (b : Byte) (s : State) :
    (modeWrite p b s).uart.port p = ((s.uart.port p).storeMode b).cycleMode := Uart.port_setPort_same _ p _

/-- A mode read answers the register under the cursor of the state it is run on. -/
theorem modeRead_answers (p : Port) {s : State} {b : Byte} (h : (s.uart.port p).modeReg = b) (sz : AccSize) :
    answers (modeRead p sz s) sz b.toNat := by
  rw [← h]
  exact answers_answerRead _ sz _ (by decide)

/-- Settles O23: the writes leave both values with the cursor at 0, and each read moves the cursor. -/
theorem modeWritesReadBackInTurn : Obligations.ModeWritesReadBackInTurn := by
  intro s t1 t2 t3 t4 t5 p v1 v2 hcursor h1 h2 h3 h4 h5
  rw [exec_modeWriteOp] at h1 h2
  rw [exec_modeReadOp] at h3 h4 h5
  cases h1; cases h2; cases h3; cases h4; cases h5
  generalize hs2 : modeWrite p _ (modeWrite p _ s) = s2
  have hport : s2.uart.port p = { s.uart.port p with mode0 := writtenByte .w8 v1, mode1 := writtenByte .w8 v2 } := by
    rw [← hs2, modeWrite_port, modeWrite_port, storeMode_twice hcursor]
  rw [← writtenByte_toNat .w8 v1, ← writtenByte_toNat .w8 v2]
  refine ⟨modeRead_answers p ?first .w8, modeRead_answers p ?second .w8, modeRead_answers p ?third .w8⟩
  case first => rw [hport]; exact modeReg_of_zero hcursor
  case second => rw [modeRead_port, hport]; exact modeReg_cycleMode_of_zero hcursor
  case third => rw [modeRead_port, modeRead_port, cycleMode_twice, hport]; exact modeReg_of_zero hcursor

/-! ## The counter over several ticks (R210) -/

/-- A tick of an enabled counter above the step, no character offered. -/
theorem step_counts {s : State} {rest : List Op} (hpending : s.pending = .service .uart :: rest)
    (hkbd : s.inputs.kbd = none) (hen : s.uart.counterEnabled = true)
    (habove : s.params.uartCtrStep < s.uart.counterValue.toNat) :
    step s = .next ((s.start rest).withUart
      { s.uart with counterValue := s.uart.counterValue - BitVec.ofNat 16 s.params.uartCtrStep }) := by
  rw [step_serviceUart hpending, serviceUart_of_no_character (s := s.start rest) hkbd,
    counterTick_of_above (s := s.start rest) hen habove]
  rfl

/-- A tick of an enabled counter at or below the step, no character offered. -/
theorem step_expires {s : State} {rest : List Op} (hpending : s.pending = .service .uart :: rest)
    (hkbd : s.inputs.kbd = none) (hen : s.uart.counterEnabled = true)
    (hle : s.uart.counterValue.toNat ≤ s.params.uartCtrStep) :
    step s = .next ((s.start rest).withUart { s.uart with
      istat := setBit s.uart.istat criBit true
      counterValue := s.uart.counterSet
      counterEnabled := false }).recompute := by
  rw [step_serviceUart hpending, serviceUart_of_no_character (s := s.start rest) hkbd,
    counterTick_of_expired (s := s.start rest) hen hle]
  rfl

theorem run_counts (n : Nat) {s : State} {rest : List Op} (hen : s.uart.counterEnabled = true)
    (hkbd : s.inputs.kbd = none) (hpending : s.pending = List.replicate n (.service .uart) ++ rest)
    (habove : n * s.params.uartCtrStep < s.uart.counterValue.toNat) :
    ∃ t, Sys2Proof.core.run n s = .next t ∧ t.uart.counterEnabled = true ∧ t.uart.istat = s.uart.istat ∧
      t.uart.counterValue.toNat = s.uart.counterValue.toNat - n * s.params.uartCtrStep := by
  induction n generalizing s with
  | zero => exact ⟨s, rfl, hen, rfl, by omega⟩
  | succ n ih =>
    rw [Nat.succ_mul] at habove ⊢
    have hone : s.params.uartCtrStep < s.uart.counterValue.toNat := by omega
    have hvalue := sub_ofNat_toNat_of_lt hone
    have hfirst := step_counts (rest := List.replicate n (.service .uart) ++ rest) hpending hkbd hen hone
    obtain ⟨t, hrun, htEn, htIstat, htValue⟩ := ih (s := (s.start _).withUart
      { s.uart with counterValue := s.uart.counterValue - BitVec.ofNat 16 s.params.uartCtrStep }) hen hkbd rfl
      (by simp only [State.withUart_uart, State.withUart_params, State.start_params, hvalue]; omega)
    refine ⟨t, by rw [run_succ n s _ hfirst, hrun], htEn, htIstat, ?_⟩
    simp only [State.withUart_uart, State.withUart_params, State.start_params, hvalue] at htValue
    omega

theorem run_expires (n : Nat) {s : State} {rest : List Op} (hen : s.uart.counterEnabled = true)
    (hkbd : s.inputs.kbd = none) (hpending : s.pending = List.replicate (n + 1) (.service .uart) ++ rest)
    (habove : n * s.params.uartCtrStep < s.uart.counterValue.toNat)
    (hle : s.uart.counterValue.toNat ≤ (n + 1) * s.params.uartCtrStep) :
    ∃ t, Sys2Proof.core.run (n + 1) s = .next t ∧ t.uart.counterEnabled = false ∧
      t.uart.counterValue = s.uart.counterSet ∧ isWithBit s.uart.istat t.uart.istat 3 true := by
  induction n generalizing s with
  | zero =>
    have hlast := step_expires (rest := rest) hpending hkbd hen (by omega)
    refine ⟨_, (run_one s).trans hlast, ?_⟩
    rw [State.recompute_uart]
    exact ⟨rfl, rfl, isWithBit_setBit s.uart.istat 3 true⟩
  | succ n ih =>
    rw [Nat.succ_mul] at habove hle
    have hone : s.params.uartCtrStep < s.uart.counterValue.toNat := by omega
    have hvalue := sub_ofNat_toNat_of_lt hone
    have hfirst := step_counts (rest := List.replicate (n + 1) (.service .uart) ++ rest) hpending hkbd hen hone
    obtain ⟨t, hrun, hafter⟩ := ih (s := (s.start _).withUart
      { s.uart with counterValue := s.uart.counterValue - BitVec.ofNat 16 s.params.uartCtrStep }) hen hkbd rfl
      (by simp only [State.withUart_uart, State.withUart_params, State.start_params, hvalue]; omega)
      (by simp only [State.withUart_uart, State.withUart_params, State.start_params, hvalue]; omega)
    exact ⟨t, by rw [run_succ (n + 1) s _ hfirst, hrun], hafter⟩

/-- The tick of the expiry, ⌈P/S⌉, is the first whose steps reach P. -/
theorem ceilDiv_bounds {P S n : Nat} (hP : 1 ≤ P) (hS : 0 < S) (hn : n = (P + S - 1) / S) :
    ∃ m, n = m + 1 ∧ m * S < P ∧ P ≤ (m + 1) * S := by
  have hsplit : P + S - 1 = P - 1 + S := by omega
  rw [hsplit, Nat.add_div_right _ hS] at hn
  have hbelow := Nat.div_mul_le_self (P - 1) S
  have habove := Nat.lt_mul_div_succ (P - 1) hS
  rw [Nat.mul_comm] at habove
  exact ⟨(P - 1) / S, hn, by omega, by omega⟩

/-- Settles O32: the counter drops while it stays above 0, and the tick that would bring it to 0 expires it. -/
theorem counterExpiresOnItsTick : Obligations.CounterExpiresOnItsTick := by
  intro s n rest hen hkbd hpos hpending
  refine ⟨run_counts n hen hkbd hpending, fun hn => ?expiry⟩
  case expiry =>
    obtain ⟨m, rfl, habove, hle⟩ := ceilDiv_bounds hpos (Nat.succ_pos _) hn
    exact run_expires m hen hkbd hpending habove hle

end Sys2Proof.Proofs
end

section
/-! PROOFS. The Type III commands (R256 to R258), and a command's way from its write to its execution (R235, R243). -/

namespace Sys2Proof.Proofs

open Sys2Proof.Machine Sys2Proof.Claims Sys2Proof.Laws

/-! ## READ_ADDRESS (R256) -/

theorem exec_fdcReadAddress (s : State) (y e sd x : Bool) :
    exec (.fdcReadAddress y e sd x) s = .next (if s.inputs.fdcReady then readAddress s else finish 0x00 s) := rfl

/-- A drawn sector number is one of the track's (R256, log 18). -/
theorem drawnSector_eq (w : Word) : ∃ n, 1 ≤ n ∧ n ≤ 9 ∧ drawnSector w = BitVec.ofNat 8 n := by
  have hlt : w.toNat % 9 < 9 := Nat.mod_lt _ (by decide)
  exact ⟨1 + w.toNat % 9, by omega, by omega, rfl⟩

/-- The ID record in the words of the statements: the side and the two CRC bytes as numbers. -/
theorem idRecord_eq (f : Fdc) (sec : Byte) (crc : Half) :
    idRecord f sec crc =
      { track := BitVec.ofNat 8 f.physTrack
        side := BitVec.ofNat 8 f.side.toNat
        sector := sec
        sizeCode := 0x02
        crcHigh := BitVec.ofNat 8 (crc.toNat / 256)
        crcLow := BitVec.ofNat 8 crc.toNat } := by
  have hside : (if f.side then 1 else 0 : Byte) = BitVec.ofNat 8 f.side.toNat := by cases f.side <;> rfl
  have hhigh : crc.extractLsb' 8 8 = BitVec.ofNat 8 (crc.toNat / 256) := by
    apply BitVec.eq_of_toNat_eq
    rw [BitVec.extractLsb'_toNat, Nat.shiftRight_eq_div_pow, BitVec.toNat_ofNat]
  have hlow : crc.setWidth 8 = BitVec.ofNat 8 crc.toNat := rfl
  rw [idRecord, hside, hhigh, hlow]

/-- Settles O43: with the drive ready two draws make the record that is published. -/
theorem readAddressRule : Obligations.ReadAddressRule := by
  intro s y e sd x
  rw [exec_fdcReadAddress]
  refine ⟨fun hnot => ?notReady, fun hready => ?ready⟩
  case notReady =>
    rw [hnot]
    exact ⟨_, rfl, finishedWith_finish s.fdc 0x00 s⟩
  case ready =>
    obtain ⟨n, hlow, hhigh, hsector⟩ := drawnSector_eq s.drawn
    refine ⟨readAddress s, n, s.afterDraw.drawn.setWidth 16, hlow, hhigh, by rw [hready]; rfl, ?_⟩
    rw [← hsector, ← idRecord_eq]
    rfl

/-! ## READ_TRACK and WRITE_TRACK (R257, R258) -/

theorem exec_trackRow (s : State) (dir : XferDir) (y e sd x : Bool) :
    exec (trackRow dir y e sd x) s = .next (trackStart dir s) := by
  cases dir <;> rfl

theorem trackOffset_eq (f : Fdc) : trackOffset f = (f.physTrack * 2 + f.side.toNat) * 4608 := by
  rw [trackOffset]
  cases f.side <;> rfl

/-- Settles O44: the three ways of `trackStart`. -/
theorem trackCommandsRule : Obligations.TrackCommandsRule := by
  intro s dir y e sd x
  refine ⟨_, exec_trackRow s dir y e sd x, ?_⟩
  rcases trackStart_cases dir s with ⟨hready, heq⟩ | ⟨hready, hdir, hwp, heq⟩ | ⟨hready, hwp, heq⟩ <;> rw [heq]
  case inl =>
    rw [if_pos hready]
    exact finishedWith_finish s.fdc 0x00 s
  case inr.inl =>
    rw [if_neg (Bool.ne_false_iff.2 hready), if_pos ⟨hdir, hwp⟩]
    exact finishedWith_finish s.fdc 0x40 s
  case inr.inr =>
    rw [if_neg (Bool.ne_false_iff.2 hready), if_neg hwp, ← trackOffset_eq]
    exact waitsWith_publish s.fdc _ s

/-! ## From the write to the execution (R235, R243, R244) -/

/-- The FDC's ticks count down to the last, which executes the command. -/
theorem run_fdcTicks (n : Nat) {s : State} {rest : List Op} (hphase : s.fdc.phase = .exec (n + 1))
    (hpending : s.pending = List.replicate (n + 1) (.service .fdc) ++ rest) :
    Sys2Proof.core.run (n + 1) s =
      exec (decodeFdcCommand s.fdc.cmd)
        { s with pending := rest, returned := none, fdc := { s.fdc with phase := .exec 1 } } := by
  induction n generalizing s with
  | zero =>
    have hfdc : { s.fdc with phase := .exec 1 } = s.fdc := by rw [← hphase]
    rw [run_one, step_serviceFdc (rest := rest) hpending,
      serviceFdc_of_due (s := s.start rest) hphase (Nat.le_refl 1), hfdc]
    rfl
  | succ n ih =>
    have hfirst := step_serviceFdc (rest := List.replicate (n + 1) (.service .fdc) ++ rest) hpending
    rw [serviceFdc_of_counting (s := s.start _) hphase (by omega)] at hfirst
    rw [run_succ (n + 1) s _ hfirst, ih rfl rfl]
    rfl

/-- Settles O47: the acceptance, then FDC_LATENCY ticks. -/
theorem fdcCommandRunsAfterItsLatency : Obligations.FdcCommandRunsAfterItsLatency := by
  intro s t0 b i rest hbusy hclass hdecode hpending hwrite
  have hbyte : (b.setWidth 32 : Word).setWidth 8 = b := BitVec.setWidth_setWidth_of_le b (by decide)
  have hi : decodeFdcCommand b = i := Decoded.instr.inj hdecode
  rw [exec_fdcWrCmd, hbyte, fdcCommandWrite_of_notBusy hclass hbusy] at hwrite
  cases hwrite
  have hfirst := step_bus hpending (decode_issued_fdcCmd b)
  rw [exec_fdcWrCmd, hbyte, fdcCommandWrite_of_notBusy (s := s.start _) hclass hbusy] at hfirst
  rw [run_succ _ s _ hfirst]
  rw [Config.Params.fdcLatency, run_fdcTicks s.params.fdcLatencyPred (rest := rest) rfl rfl, ← hi]
  rfl

end Sys2Proof.Proofs
end

section
/-! PROOFS. The NVRAM where it goes on (R290, R294, R295, R297, R298). A number is told by its bytes, the most significant
first: `bigEndian` of the stored bytes, and the quotients by powers of 256 of the value written. -/

namespace Sys2Proof.Proofs

open Sys2Proof.Machine Sys2Proof.Claims Sys2Proof.Laws

/-! ## Bytes and numbers -/

/-- One byte more at the end makes the number 256 times larger. -/
theorem bigEndian_succ (m : Memory) (o n : Nat) :
    bigEndian m o (n + 1) = 256 * bigEndian m o n + (Memory.read m (o + n)).toNat := by
  have hshift : ∀ j ∈ List.range n, (Memory.read m (o + j)).toNat * 256 ^ (n + 1 - 1 - j) =
      256 * ((Memory.read m (o + j)).toNat * 256 ^ (n - 1 - j)) := by
    intro j hj
    have hlt : j < n := List.mem_range.1 hj
    have hexp : n + 1 - 1 - j = n - 1 - j + 1 := by omega
    rw [hexp, Nat.pow_succ]
    ac_rfl
  rw [bigEndian, bigEndian, List.range_succ, List.map_append, List.sum_append, List.map_congr_left hshift,
    List.sum_map_mul_left]
  simp

theorem bigEndian_lt (m : Memory) (o n : Nat) : bigEndian m o n < 256 ^ n := by
  induction n with
  | zero => exact Nat.zero_lt_one
  | succ n ih =>
    have hbyte : (Memory.read m (o + n)).toNat < 256 := BitVec.isLt _
    rw [bigEndian_succ, Nat.pow_succ]
    omega

/-- The bytes an access reads, as a number; the accesses have at most 4 (R290). -/
theorem nvRead_toNat (m : Memory) (o : Nat) {n : Nat} (hn : n ≤ 4) : (nvRead m o n).toNat = bigEndian m o n := by
  induction n with
  | zero => rfl
  | succ n ih =>
    have hlow := ih (by omega)
    have hlt : bigEndian m o n < 256 ^ 3 :=
      Nat.lt_of_lt_of_le (bigEndian_lt m o n) (Nat.pow_le_pow_right (by decide) (by omega))
    have hbyte : (Memory.read m (o + n)).toNat < 2 ^ 8 := BitVec.isLt _
    have hor := Nat.shiftLeft_add_eq_or_of_lt hbyte (bigEndian m o n)
    have hhigh : bigEndian m o n <<< 8 < 2 ^ 32 := by rw [Nat.shiftLeft_eq]; omega
    have hsmall : (Memory.read m (o + n)).toNat < 2 ^ 32 := by omega
    rw [bigEndian_succ, nvRead, BitVec.toNat_or, BitVec.toNat_shiftLeft, BitVec.toNat_setWidth, hlow,
      Nat.mod_eq_of_lt hhigh, Nat.mod_eq_of_lt hsmall, ← hor, Nat.shiftLeft_eq, Nat.mul_comm]

/-- A number whose bytes are those of v is v's low bytes. -/
theorem bigEndian_of_bytes (m : Memory) (o : Nat) {n : Nat} (v : Nat)
    (h : ∀ j, j < n → (Memory.read m (o + j)).toNat = v / 256 ^ (n - 1 - j) % 256) :
    bigEndian m o n = v % 256 ^ n := by
  induction n generalizing v with
  | zero => simp [bigEndian, Nat.mod_one]
  | succ n ih =>
    have hlast := h n (Nat.lt_succ_self n)
    have hinit : ∀ j, j < n → (Memory.read m (o + j)).toNat = v / 256 / 256 ^ (n - 1 - j) % 256 := by
      intro j hj
      have hexp : n + 1 - 1 - j = n - 1 - j + 1 := by omega
      rw [h j (by omega), hexp, Nat.pow_succ, Nat.mul_comm, Nat.div_div_eq_div_mul]
    rw [bigEndian_succ, ih (v / 256) hinit, hlast, Nat.pow_succ, Nat.mul_comm (256 ^ n), Nat.mod_mul]
    simp [Nat.add_comm]

theorem bytesOf_le (sz : AccSize) : bytesOf sz ≤ 4 := by cases sz <;> decide

/-- The bits of an access are 8 for each of its bytes (R74, R290). -/
theorem two_pow_bits (sz : AccSize) : 2 ^ sz.bits = 256 ^ bytesOf sz := by cases sz <;> decide

/-! ## Accesses that go on -/

theorem exec_nvRd_of_check_none {s : State} {off : Nat} {sz : AccSize} (h : nvCheck s off (bytesOf sz) = none) :
    exec (.nvRd off sz) s = .next (s.answerRead sz (nvRead s.nv.bytes off (bytesOf sz))) := by
  rw [bytesOf_eq] at h ⊢
  rw [exec_nvRd, execNvRd, h]

theorem exec_nvWr_of_check_none {s : State} {off : Nat} {sz : AccSize} {v : Word}
    (h : nvCheck s off (bytesOf sz) = none) :
    exec (.nvWr off sz v) s = .next (s.withBytes (nvWrite s.nv.bytes off (bytesOf sz) v)) := by
  rw [bytesOf_eq] at h ⊢
  rw [exec_nvWr, execNvWr, h]

/-- A read that goes on has passed its check. -/
theorem nvRd_next {s t : State} {off : Nat} {sz : AccSize} (h : exec (.nvRd off sz) s = .next t) :
    t = s.answerRead sz (nvRead s.nv.bytes off (bytesOf sz)) := by
  cases hcheck : nvCheck s off (bytesOf sz) with
  | none => rw [exec_nvRd_of_check_none hcheck] at h; cases h; rfl
  | some f => rw [exec_nvRd_of_check hcheck] at h; cases h

/-- A write that goes on has passed its check. -/
theorem nvWr_next {s t : State} {off : Nat} {sz : AccSize} {v : Word} (h : exec (.nvWr off sz v) s = .next t) :
    t = s.withBytes (nvWrite s.nv.bytes off (bytesOf sz) v) := by
  cases hcheck : nvCheck s off (bytesOf sz) with
  | none => rw [exec_nvWr_of_check_none hcheck] at h; cases h; rfl
  | some f => rw [exec_nvWr_of_check hcheck] at h; cases h

/-- A read answers the bytes' number, which is below 2^size. -/
theorem nvRead_answers (s : State) (off : Nat) (sz : AccSize) :
    answers (s.answerRead sz (nvRead s.nv.bytes off (bytesOf sz))) sz (bigEndian s.nv.bytes off (bytesOf sz)) := by
  have hanswer := answers_answerRead_mod s sz (nvRead s.nv.bytes off (bytesOf sz))
  rwa [nvRead_toNat _ _ (bytesOf_le sz), two_pow_bits, Nat.mod_eq_of_lt (bigEndian_lt _ _ _)] at hanswer

/-- Each byte of the value written stands at its place, the most significant at the offset (R290). -/
theorem read_nvWrite_inside {m : Memory} (hm : m.wf) (o n : Nat) (v : Word) {j : Nat} (hj : j < n) :
    (Memory.read (nvWrite m o n v) (o + j)).toNat = v.toNat / 256 ^ (n - 1 - j) % 256 := by
  have hexp : o + n - 1 - (o + j) = n - 1 - j := by omega
  have hpow : (2 : Nat) ^ (8 * (n - 1 - j)) = 256 ^ (n - 1 - j) := Nat.pow_mul 2 8 _
  rw [read_nvWrite m o n v _ hm, if_pos (by omega), hexp, BitVec.toNat_setWidth, BitVec.toNat_ushiftRight,
    Nat.shiftRight_eq_div_pow, hpow]

theorem read_nvWrite_outside {m : Memory} (hm : m.wf) {o n x : Nat} (v : Word) (hx : x < o ∨ o + n ≤ x) :
    Memory.read (nvWrite m o n v) x = Memory.read m x := by
  rw [read_nvWrite m o n v x hm, if_neg (by omega)]

/-- Settles O49: the check passes and the bytes are read as `nvRead_answers` says. -/
theorem nvReadReturnsBigEndian : Obligations.NvReadReturnsBigEndian := by
  intro s off sz halloc hrange
  exact ⟨_, exec_nvRd_of_check_none ((nvCheck_none s off _).2 ⟨halloc, hrange⟩), rfl, nvRead_answers s off sz⟩

/-- Settles O50: the check passes and the bytes inside and outside the access are those of `read_nvWrite`. -/
theorem nvWriteStoresBigEndian : Obligations.NvWriteStoresBigEndian := by
  intro s off sz v hwf halloc hrange
  exact ⟨_, exec_nvWr_of_check_none ((nvCheck_none s off _).2 ⟨halloc, hrange⟩), rfl,
    fun j hj => read_nvWrite_inside hwf off _ v hj, fun x hx => read_nvWrite_outside hwf v hx⟩

/-- Settles O52: the number of the bytes just written is the value's low bytes. -/
theorem nvWriteThenReadReturnsTheValue : Obligations.NvWriteThenReadReturnsTheValue := by
  intro s t u off sz v hwf hwrite hread
  have hanswer := nvRead_answers t off sz
  rw [← nvRd_next hread] at hanswer
  have hbytes : bigEndian t.nv.bytes off (bytesOf sz) = v.toNat % 2 ^ sz.bits := by
    rw [nvWr_next hwrite, two_pow_bits]
    exact bigEndian_of_bytes _ off v.toNat fun j hj => read_nvWrite_inside hwf off _ v hj
  rwa [hbytes] at hanswer

/-! ## Images (R297, R298) -/

theorem toImage_ofImage (image : List Byte) : Memory.toImage (Memory.ofImage 0 image) image.length = image := by
  apply List.ext_getElem
  · simp [Memory.toImage]
  · intro j hj himage
    have hread := Memory.read_ofImage 0 image j himage
    rw [Nat.zero_add] at hread
    simp [Memory.toImage, hread]

theorem nvLoad_of_length {s : State} {image : List Byte} (halloc : s.nv.allocated = true)
    (hlen : image.length = s.params.nvramSize) : nvLoad image s = .next (s.withBytes (Memory.ofImage 0 image)) := by
  rw [nvLoad, if_neg (Bool.ne_false_iff.2 halloc), if_neg (not_not_intro hlen)]

theorem nvLoad_of_length_ne {s : State} {image : List Byte} (halloc : s.nv.allocated = true)
    (hlen : image.length ≠ s.params.nvramSize) : nvLoad image s = .fault .nvImageSize := by
  rw [nvLoad, if_neg (Bool.ne_false_iff.2 halloc), if_pos hlen]

theorem nvSave_of_allocated {s : State} (halloc : s.nv.allocated = true) :
    nvSave s = .next (s.answer (.image (Memory.toImage s.nv.bytes s.params.nvramSize))) := by
  rw [nvSave, if_neg (Bool.ne_false_iff.2 halloc)]

/-- Settles O53: the save lists the bytes the load put there, as many as the store has. -/
theorem loadThenSaveReturnsTheImage : Obligations.LoadThenSaveReturnsTheImage := by
  intro s image rest halloc hpending
  refine ⟨fun hlen => ?saved, fun hlen => (step_nvLoad hpending).trans (nvLoad_of_length_ne halloc hlen)⟩
  case saved =>
    have hload := (step_nvLoad hpending).trans (nvLoad_of_length (s := s.start (.nvSave :: rest)) halloc hlen)
    have hsave := (step_nvSave (s := (s.start _).withBytes (Memory.ofImage 0 image)) (rest := rest) rfl).trans
      (nvSave_of_allocated halloc)
    refine ⟨_, (run_succ 1 s _ hload).trans ((run_one _).trans hsave), ?_, rfl⟩
    have himage := toImage_ofImage image
    rw [hlen] at himage
    exact congrArg (fun bytes => some (Returned.image bytes)) himage

end Sys2Proof.Proofs
end

section
/-! PROOFS. Resets in a row (R346, R347): a reset that goes on is `resetOf`, which is idempotent, and the five of them
leave every device at its reset values. -/

namespace Sys2Proof.Proofs

open Sys2Proof.Machine Sys2Proof.Claims

theorem runReset_next {d : Device} {s t : State} (h : runReset d s = .next t) : t = resetOf d s := by
  cases d with
  | csr | tmr | uart | fdc => cases h; rfl
  | nv =>
    cases halloc : s.nv.allocated with
    | true =>
      rw [runReset, resetNv_of_allocated halloc] at h
      cases h
      exact (resetOf_nv_of_allocated halloc).symm
    | false =>
      cases havail : s.inputs.storeAvailable with
      | true =>
        rw [runReset, resetNv_of_available halloc havail] at h
        cases h
        exact (resetOf_nv_of_unallocated halloc).symm
      | false =>
        rw [runReset, resetNv_of_unavailable halloc havail] at h
        cases h

/-- A reset that went on, as a step. -/
theorem step_reset_next {s t : State} {d : Device} {rest : List Op} (hpending : s.pending = .reset d :: rest)
    (h : step s = .next t) : t = (resetOf d s).start rest := by
  rw [step_reset hpending] at h
  rw [runReset_next h, resetOf_start]

theorem resetOf_resetOf (d : Device) (s : State) : resetOf d (resetOf d s) = resetOf d s := by
  cases d with
  | csr | tmr | uart | fdc => rfl
  | nv =>
    cases halloc : s.nv.allocated with
    | true => rw [resetOf_nv_of_allocated halloc, resetOf_nv_of_allocated halloc]
    | false => rw [resetOf_nv_of_unallocated halloc, resetOf_nv_of_allocated rfl]

/-- Settles O58: both resets went on, so each is `resetOf`. -/
theorem resetIsIdempotent : Obligations.ResetIsIdempotent := by
  intro s t u d rest hpending hfirst hsecond
  have ht := step_reset_next hpending hfirst
  have hu := step_reset_next (by rw [ht]; rfl) hsecond
  rw [hu, ht, resetOf_start, resetOf_resetOf]
  rfl

/-! ## The system reset (R347) -/

/-- The state after the resets of a list of devices, in its order. -/
def resets (ds : List Device) (s : State) : State := ds.foldl (fun u d => resetOf d u) s

theorem resets_cons (d : Device) (ds : List Device) (s : State) : resets (d :: ds) s = resets ds (resetOf d s) := rfl

theorem resets_start (ds : List Device) (s : State) (rest : List Op) :
    resets ds (s.start rest) = (resets ds s).start rest := by
  induction ds generalizing s with
  | nil => rfl
  | cons d ds ih => rw [resets_cons, resetOf_start, ih, ← resets_cons]

/-- A store is there or can be had. -/
def hasStore (s : State) : Prop := s.nv.allocated = true ∨ s.inputs.storeAvailable = true

theorem hasStore_resetOf {s : State} (h : hasStore s) (d : Device) : hasStore (resetOf d s) := by
  cases d with
  | csr | tmr | uart | fdc => exact h
  | nv =>
    cases halloc : s.nv.allocated with
    | true => rwa [resetOf_nv_of_allocated halloc]
    | false => rw [resetOf_nv_of_unallocated halloc]; exact .inl rfl

/-- Resets issued one after the other, at least one of them. -/
theorem run_resets (d : Device) (ds : List Device) {s : State} {rest : List Op}
    (hpending : s.pending = .reset d :: (ds.map .reset ++ rest)) (hstore : hasStore s) :
    Sys2Proof.core.run (ds.length + 1) s = .next ((resets (d :: ds) s).start rest) := by
  induction ds generalizing d s with
  | nil => exact (run_one s).trans (step_reset_eq_resetOf hpending fun _ => hstore)
  | cons e ds ih =>
    have hfirst := step_reset_eq_resetOf hpending fun _ => hstore
    have hrest := ih e (s := (resetOf d s).start _) rfl (hasStore_resetOf hstore d)
    rw [resets_start, ← resets_cons] at hrest
    exact (run_succ _ s _ hfirst).trans hrest

/-- The state after the resets of the four devices without a store. -/
def registersReset (s : State) : State := resets [.csr, .tmr, .uart, .fdc] s

theorem registersReset_eq (s : State) :
    registersReset s = { State.resetWith s.params with
      nv := s.nv, inputs := s.inputs, history := s.history, returned := s.returned, pending := s.pending } := rfl

theorem run_systemReset {s : State} {rest : List Op} (hpending : s.pending = systemReset ++ rest)
    (hstore : hasStore s) :
    Sys2Proof.core.run 5 s = .next ((resetOf .nv (registersReset s)).start rest) :=
  run_resets .csr [.tmr, .uart, .fdc, .nv] hpending hstore

/-- Settles O59: the four devices hold their reset values, and the store's reset either keeps it or fills it. -/
theorem systemResetGivesResetState : Obligations.SystemResetGivesResetState := by
  refine ⟨fun s rest hpending hstore => ⟨_, run_systemReset hpending hstore, ?_⟩, fun p csr tmr uart fdc => ?powerOn⟩
  case powerOn =>
    refine ⟨rfl, ?_⟩
    rw [run_systemReset (rest := []) rfl (.inr rfl), resetOf_nv_of_unallocated rfl]
    rfl
  cases halloc : s.nv.allocated with
  | true =>
    rw [resetOf_nv_of_allocated (s := registersReset s) halloc, registersReset_eq]
    exact ⟨rfl, halloc, fun h => Bool.noConfusion h, fun _ => rfl⟩
  | false =>
    rw [resetOf_nv_of_unallocated (s := registersReset s) halloc, registersReset_eq]
    exact ⟨rfl, rfl, fun _ _ => rfl, fun h => Bool.noConfusion h⟩

end Sys2Proof.Proofs
end
